-- ==== Sys2Proof/Word.lean ====
section
/-!
DEFINITION. The word types of the kuber CTR block (00_scope.md R7, R8): bytes, 32-bit registers, the 64-bit stream
offset and counter, and the 16-byte block.
-/

namespace Sys2Proof

/-- A byte (R8). -/
abbrev Byte := BitVec 8

/-- A 32-bit register of the register window, or a command word (R20, R100). -/
abbrev Word := BitVec 32

/-- A 64-bit unsigned value: the stream offset (R49) and the adder's counter operand (R136). -/
abbrev DWord := BitVec 64

/-- Sixteen bytes, byte 0 in bits 127:120 (R76, R78): an IV, a counter block, a keystream block. As a number it is
`BE` of the sixteen bytes. -/
abbrev Block := BitVec 128

end Sys2Proof
end

