-- ==== Sys2Proof/Config.lean ====
section
/-!
DEFINITION. What an implementation or the environment fixes and the block does not: the constants of 00_scope.md R5,
the block-cipher primitive (R158), the base address (R80), and the free choices of the agents outside the block
(R82). The `opaque` constants have no body: nothing can be proved of their values.
-/

namespace Sys2Proof

/-- `B` and `N_IV` of R5, in bytes. -/
def Config.blockBytes : Nat := 16

/-- `BUF_MAX` of R5: the largest capacity, and the number of bytes of `buf_in` (R70). -/
def Config.bufMax : Nat := 65536

/-- `OFF_LIMIT` of R5: the largest value of the stream offset (R49, R165). -/
def Config.offLimit : Nat := 2 ^ 64 - 1

/-- The block-cipher primitive as the engine sees it (R158): the function `E`, and for each invocation, numbered from 0
since power-on, whether it returns `FAIL`. -/
structure Primitive where
  /-- `E(key, cb)`: a total function of the key bytes and the counter block. -/
  E : List Byte → Block → Block
  /-- Whether invocation number `n` returns `FAIL`. -/
  fails : Nat → Bool

/-- The open parameter `E` of R5 (free; log 1). -/
opaque Config.cipher : List Byte → Block → Block

/-- The open parameter `fails` (D5): a free draw for each invocation (R158; log 2). -/
opaque Config.primFails : Nat → Bool

/-- The primitive this hardware is connected to. -/
def Config.primitive : Primitive := { E := Config.cipher, fails := Config.primFails }

/-- One access of the host to the register window (R70). `bits` is the access width; only 32-bit accesses at multiples
of 4 are transactions (R71). -/
inductive Access where
  /-- `BusRead(offset)`. -/
  | read (offset : BitVec 8) (bits : Nat)
  /-- `BusWrite(offset, value)`. -/
  | write (offset : BitVec 8) (bits : Nat) (value : Word)
deriving DecidableEq, Repr, Inhabited

/-- One statement of a host program as the bus sees it (R110). -/
inductive HostOp where
  /-- `wr` and `rd`: one bus access. -/
  | access (a : Access)
  /-- `wait`: read `STATUS` until `STATUS.BUSY = 0`. -/
  | wait
deriving DecidableEq, Repr, Inhabited

/-- The agents that take steps (R10, R82), and the platform's reset input (R270). The primitive has no step of its own
(R162). -/
inductive Agent where
  | host
  | engine
  | sink
  | reset
deriving DecidableEq, Repr, Inhabited

/-- What the host does next where nothing is placed for it: free (R82; log 4). -/
opaque Config.hostOp : Nat → HostOp

/-- Which agent moves next where nothing is placed: free, every interleaving is allowed (R82; log 3). -/
opaque Config.agent : Nat → Agent

/-- The open parameter `BASE` (R5, R80): where the platform maps the register window (free; log 19). -/
opaque Config.base : Nat

/-- The bus address of a byte offset of the register window (R70, R80). The block itself sees only the offset. -/
def Config.windowAddress (offset : BitVec 8) : Nat := Config.base + offset.toNat

end Sys2Proof
end

