-- ==== Sys2Proof/Syntax.lean ====
section
/-!
DEFINITION. The commands of the block: one constructor per row of spec/opcode_table.json (30_encoding.md R104, R105).
A command word that matches no row is ILLEGAL (R106); it is no row of the table and so no constructor here.
-/

namespace Sys2Proof

/-- A decoded command (R105). -/
inductive Instr where
  /-- NOP (R200). -/
  | nop
  /-- INIT with its `KL` and `IVB` fields (R102, R201). -/
  | init (kl : BitVec 2) (ivb : BitVec 5)
  /-- WRITE of `n = NM1 + 1` data bytes (R103, R163). -/
  | write (n : Nat)
  /-- FLUSH (R167). -/
  | flush
  /-- CLOSE (R209). -/
  | close
  /-- DERIVE (R139). -/
  | derive
deriving DecidableEq, Repr

end Sys2Proof
end

