-- ==== Sys2Proof/Machine/State.lean ====
section
/-!
DEFINITION. The state of the block and of the agents around it (10_state.md), the reasons a step can stop, and the
state after reset (R55). Plain data throughout.
-/

namespace Sys2Proof.Machine

/-- `st.phase` (R25, R45). `opened` is the spec's OPEN. -/
inductive Phase where
  | uninit
  | opened
  | closed
  | fault
deriving DecidableEq, Repr

/-- `st.err`, the ten result codes that are produced (R29, R231). -/
inductive ErrCode where
  | ok
  | invalidKeyMaterial
  | streamClosed
  | primitiveFailure
  | illegalCommand
  | notOpen
  | instanceFaulted
  | invalidBufferSize
  | offsetLimit
  | illegalState
deriving DecidableEq, Repr

/-- The stages of a WRITE record (R52). -/
inductive WriteStage where
  | start
  | run
deriving DecidableEq, Repr

/-- The stages of a FLUSH or CLOSE record (R52). -/
inductive DrainStage where
  | start
  | proc
  | drain
deriving DecidableEq, Repr

/-- The pending command record with the operands sampled at acceptance (R52). `write` also keeps the byte count of its
command word (log 9). -/
inductive Pending where
  | nop
  | init (kl : BitVec 2) (ivb : BitVec 5) (key32 : List Byte) (iv16 : Block) (ioff : DWord) (bufreq : Word)
  | write (n : Nat) (rem : List Byte) (stage : WriteStage)
  | flush (stage : DrainStage)
  | close (stage : DrainStage)
  | derive (tiv : Block) (tcnt : DWord)
  | illegal
deriving DecidableEq, Repr

/-- The storage of `buf_in` (R70): the bytes that differ from what an unlisted index reads as, by rising index. -/
abbrev Memory := List Host.Cell

/-- Everything the spec gives the machine: the engine's state (R45), the host-written registers (R30 to R39), and the
agents outside the block with the choices placed for them (R82). -/
structure State where
  /-- `st.phase` (R25). -/
  phase : Phase
  /-- `st.err` (R29). -/
  err : ErrCode
  /-- `st.cur` (R52); `none` when no command is pending. -/
  cur : Option Pending
  /-- `st.key`: 0, 16, 24 or 32 bytes (R46). -/
  key : List Byte
  /-- `st.biv` (R47). -/
  biv : Block
  /-- `st.cap`, in bytes (R48). -/
  cap : Nat
  /-- `st.off` (R49). -/
  off : DWord
  /-- `st.fill`, in bytes (R50). -/
  fill : Nat
  /-- `buf_in` (R50). -/
  bufIn : Memory
  /-- `out_q`, oldest byte first (R51). -/
  outQ : List Byte
  /-- `st.div`, read through `DIV0`-`DIV3` (R40). -/
  div : Block
  /-- `DIN` (R30). -/
  din : Word
  /-- `IOFF_LO` (R34). -/
  ioffLo : Word
  /-- `IOFF_HI` (R34). -/
  ioffHi : Word
  /-- `BUFREQ` (R35). -/
  bufreq : Word
  /-- `KEY0`-`KEY7` (R36). -/
  keyReg : Vector Word 8
  /-- `IV0`-`IV3` (R37). -/
  ivReg : Vector Word 4
  /-- `TIV0`-`TIV3` (R38). -/
  tiv : Vector Word 4
  /-- `TCNT_LO` (R39). -/
  tcntLo : Word
  /-- `TCNT_HI` (R39). -/
  tcntHi : Word
  /-- `sink_log`: every byte the sink has taken, in order (R169). -/
  sinkLog : List Byte
  /-- The model's own: the counter blocks of all invocations so far, in order (R159). Its length is the number of the
  next invocation's free draw (log 2). -/
  primLog : List Block
  /-- The model's own: the value the host's last `BusRead` returned (R70; log 7). -/
  rdata : Word
  /-- The model's own: host operations placed and not yet carried out, oldest first (log 4). -/
  hostQ : List HostOp
  /-- The model's own: number of the next free host operation (log 4). -/
  hostSeq : Nat
  /-- The model's own: agents placed to move next (log 3). -/
  sched : List Agent
  /-- The model's own: number of the next free scheduling choice (log 3). -/
  tick : Nat
deriving DecidableEq, Repr

/-- Why the machine stops. -/
inductive Fault where
  /-- The engine would access `buf_in` at an index that does not exist (R70). Raised by `State.appendIn` and by
  `process`, only in states that break R53. Safe: the model stops where the spec says no such access happens (R90). -/
  | bufferIndex (index : Nat)
deriving DecidableEq, Repr

/-- What has no meaning in the model. -/
inductive Refusal where
  /-- A command without a meaning. Raised by no arm of `exec`. Safe. -/
  | notModelled (mnemonic : String)
  /-- A host access that is not 32 bits wide or not at a multiple of 4: no transaction of the interface (R71). Raised by
  `hostStep`. Safe: the spec asks for the refusal. -/
  | notATransaction (offset : BitVec 8) (bits : Nat)
deriving DecidableEq, Repr

/-- The machine right after reset (R55, R270), at power-on: the block's state as R55 lists it, and nothing yet recorded
by, or placed for, the agents outside the block (logs 3, 4, 7 and 8). -/
def State.reset : State where
  phase := .uninit
  err := .ok
  cur := none
  key := []
  biv := 0
  cap := 0
  off := 0
  fill := 0
  bufIn := []
  outQ := []
  div := 0
  din := 0
  ioffLo := 0
  ioffHi := 0
  bufreq := 0
  keyReg := Vector.replicate 8 0
  ivReg := Vector.replicate 4 0
  tiv := Vector.replicate 4 0
  tcntLo := 0
  tcntHi := 0
  sinkLog := []
  primLog := []
  rdata := 0
  hostQ := []
  hostSeq := 0
  sched := []
  tick := 0

end Sys2Proof.Machine
end

