-- ==== Sys2Proof/Machine/Ops.lean ====
section
/-!
DEFINITION. The shared operations: the storage of `buf_in` (20_memory.md R70), the buffer primitives (R90), the views
of the stream offset (10_state.md R33), `reinit` (41_stream_transform.md R151), and what an error does: `fail` and FAULT
entry (60_exceptions.md R230, R235). The block has no traps and no return from one (R238).
-/

namespace Sys2Proof.Machine

/-! ### Storage of `buf_in` -/

/-- What an index that is not listed reads as: reset, INIT, CLOSE and FAULT entry leave zero bytes (R55, R201, R209,
R235). -/
def Memory.unlisted : Byte := 0

/-- The byte at an index. -/
def Memory.read : Memory → Nat → Byte
  | [], _ => Memory.unlisted
  | (a, x) :: m, i => if a = i then x else Memory.read m i

/-- Set the byte at an index, keeping the canonical form: writing what an unlisted index reads as removes the entry. -/
def Memory.write : Memory → Nat → Byte → Memory
  | [], i, b => if b = Memory.unlisted then [] else [(i, b)]
  | (a, x) :: m, i, b =>
    if i < a then (if b = Memory.unlisted then (a, x) :: m else (i, b) :: (a, x) :: m)
    else if i = a then (if b = Memory.unlisted then m else (a, b) :: m)
    else (a, x) :: Memory.write m i b

/-- Indexes rise strictly from `lo`, stay in the storage, and no entry equals what an unlisted index reads as. -/
def Memory.wfFrom : Nat → Memory → Bool
  | _, [] => true
  | lo, (a, x) :: m =>
    decide (lo ≤ a) && decide (a < Config.bufMax) && decide (x ≠ Memory.unlisted) && Memory.wfFrom (a + 1) m

/-- The canonical form. -/
def Memory.wf (m : Memory) : Bool := Memory.wfFrom 0 m

/-- The `n` bytes from index `i` on. -/
def Memory.readFrom (m : Memory) : Nat → Nat → List Byte
  | _, 0 => []
  | i, n + 1 => Memory.read m i :: Memory.readFrom m (i + 1) n

/-! ### Views of the stream offset (R33) -/

/-- `PAD = st.off mod 16`. -/
def State.pad (s : State) : Nat := s.off.toNat % Config.blockBytes

/-- `CTR = st.off div 16`. -/
def State.ctr (s : State) : Nat := s.off.toNat / Config.blockBytes

/-- The number of staged data bytes, `st.fill - PAD` (R50). -/
def State.stagedCount (s : State) : Nat := s.fill - s.pad

/-! ### Buffer primitives (R90) -/

/-- `append_in(b)`; its `require st.fill < st.cap` is the caller's test. An index outside the storage does not exist
(R70; log 12). -/
def State.appendIn (s : State) (b : Byte) : Except Fault State :=
  if s.fill < Config.bufMax then
    .ok { s with bufIn := s.bufIn.write s.fill b, fill := s.fill + 1 }
  else .error (.bufferIndex s.fill)

/-- `while rem != [] and st.fill < st.cap: append_in(rem[0])` (R163). Answers what is left of `rem`. -/
def appendWhile : List Byte → State → Except Fault (List Byte × State)
  | [], s => .ok ([], s)
  | b :: rem, s =>
    if s.fill < s.cap then
      match s.appendIn b with
      | .ok t => appendWhile rem t
      | .error f => .error f
    else .ok (b :: rem, s)

/-- `read_in(i)` for every `i` from 0 to `st.fill - 1`, in order. -/
def State.readIn (s : State) : List Byte := s.bufIn.readFrom 0 s.fill

/-- `emit` of each byte of a list, in order. -/
def State.emit (s : State) (bytes : List Byte) : State := { s with outQ := s.outQ ++ bytes }

/-- `take()`, the sink step, with the sink's record of the byte (R169). The sink has no step while `out_q` is empty. -/
def sinkStep (s : State) : State :=
  match s.outQ with
  | [] => s
  | b :: q => { s with outQ := q, sinkLog := s.sinkLog ++ [b] }

/-! ### Completion, errors, `reinit` -/

/-- The end of a command with a result code: `st.err <- code; st.cur <- none`. -/
def State.finish (s : State) (code : ErrCode) : State := { s with err := code, cur := none }

/-- `fail(code)` (R230). -/
def State.fail (s : State) (code : ErrCode) : State := s.finish code

/-- A successful end: `st.err <- OK; st.cur <- none` (R230). -/
def State.succeed (s : State) : State := s.finish .ok

/-- Clearing of the latched secrets and the buffer, by CLOSE (R210) and FAULT entry (R235). -/
def State.release (s : State) : State := { s with key := [], biv := 0, bufIn := [] }

/-- FAULT entry (R235): the pending command ends, the offset, the fill and the capacity stay. -/
def State.enterFault (s : State) : State := { s.release with phase := .fault, err := .primitiveFailure, cur := none }

/-- `reinit(st.off)` (R151). -/
def State.reinit (s : State) : State := { s with fill := s.pad }

/-- The reset input (R270): the block's state takes its reset values; the sink's log and the agents outside keep theirs
(R271, R272). -/
def State.resetBlock (s : State) : State :=
  { State.reset with
    sinkLog := s.sinkLog, primLog := s.primLog, rdata := s.rdata,
    hostQ := s.hostQ, hostSeq := s.hostSeq, sched := s.sched, tick := s.tick }

end Sys2Proof.Machine
end

