-- ==== Sys2Proof/Machine/Flags.lean ====
section
/-!
DEFINITION. The status bits: the fields of `STATUS` and the `STATUS` word (10_state.md R24 to R29). The block has no
arithmetic flags (R54).
-/

namespace Sys2Proof.Machine

/-- The code of `STATUS.PHASE` (R24, R25). -/
def Phase.code : Phase → BitVec 2
  | .uninit => 0
  | .opened => 1
  | .closed => 2
  | .fault => 3

/-- The code of `STATUS.ERR` (R231). -/
def ErrCode.code : ErrCode → BitVec 4
  | .ok => 0
  | .invalidKeyMaterial => 1
  | .streamClosed => 2
  | .primitiveFailure => 3
  | .illegalCommand => 4
  | .notOpen => 5
  | .instanceFaulted => 6
  | .invalidBufferSize => 7
  | .offsetLimit => 8
  | .illegalState => 9

/-- `STATUS.BUSY` (R26). -/
def State.busy (s : State) : Bool := s.cur.isSome

/-- `STATUS.HOLD` (R28, with the exact condition of R52). -/
def State.hold (s : State) : Bool :=
  match s.cur with
  | some (.write _ _ .run) => decide (s.fill = s.cap ∧ s.outQ ≠ [])
  | some (.flush .proc) => decide (s.pad < s.fill ∧ s.outQ ≠ [])
  | some (.close .proc) => decide (s.pad < s.fill ∧ s.outQ ≠ [])
  | some (.flush .drain) => decide (s.outQ ≠ [])
  | some (.close .drain) => decide (s.outQ ≠ [])
  | _ => false

/-- `STATUS.SSTATE`: 0 IDLE, 1 ACCUMULATING, 2 DRAINING (R27). -/
def State.sstate (s : State) : BitVec 2 :=
  if s.phase ≠ .opened then 0
  else if s.outQ ≠ [] then 2
  else if s.pad < s.fill then 1
  else 0

/-- The `STATUS` word (R24). -/
def State.statusWord (s : State) : Word :=
  0#20 ++ s.err.code ++ 0#2 ++ BitVec.ofBool s.hold ++ BitVec.ofBool s.busy ++ s.sstate ++ s.phase.code

end Sys2Proof.Machine
end

