-- ==== Sys2Proof/WellFormed.lean ====
section
/-!
DEFINITION. Which commands have an encoding. `KL` and `IVB` hold exactly the encoded fields, every value of which
decodes (30_encoding.md R102, R107); the byte count of WRITE must be 1 to 4 (R103).
-/

namespace Sys2Proof

/-- The command has an encoding (R102, R103). -/
def Instr.wellFormed : Instr → Bool
  | .nop => true
  | .init _ _ => true
  | .write n => decide (1 ≤ n ∧ n ≤ 4)
  | .flush => true
  | .close => true
  | .derive => true

end Sys2Proof
end

