-- ==== Sys2Proof/Decode.lean ====
section
/-!
DEFINITION. Decoding of command words (30_encoding.md R100 to R107), the encoder, and the opcode map of R104 as a list
of rows. A command is one 32-bit word written in one access, so there is no byte order and no length to find (R100).
-/

namespace Sys2Proof

/-- Why a word decodes to ILLEGAL (R106). -/
inductive DecodeError where
  /-- A reserved opcode, 0x06 to 0xFF. -/
  | reservedOpcode (op : BitVec 8)
  /-- A defined opcode with a non-zero bit where R101 to R103 require 0. -/
  | operandBits (op : BitVec 8)
deriving DecidableEq, Repr

/-- R105. Total on all words: a word without a command is rejected by name. -/
def decode (w : Word) : Except DecodeError Instr :=
  let op : BitVec 8 := w.extractLsb 31 24
  if op = 0x00#8 then
    if w.extractLsb 23 0 = 0 then .ok .nop else .error (.operandBits op)
  else if op = 0x01#8 then
    if w.extractLsb 23 13 = 0 ∧ w.extractLsb 7 2 = 0 then
      .ok (.init (w.extractLsb 1 0) (w.extractLsb 12 8))
    else .error (.operandBits op)
  else if op = 0x02#8 then
    if w.extractLsb 23 2 = 0 then .ok (.write ((w.extractLsb 1 0).toNat + 1)) else .error (.operandBits op)
  else if op = 0x03#8 then
    if w.extractLsb 23 0 = 0 then .ok .flush else .error (.operandBits op)
  else if op = 0x04#8 then
    if w.extractLsb 23 0 = 0 then .ok .close else .error (.operandBits op)
  else if op = 0x05#8 then
    if w.extractLsb 23 0 = 0 then .ok .derive else .error (.operandBits op)
  else .error (.reservedOpcode op)

/-- The word of a command (R101 to R104). -/
def encode : Instr → Word
  | .nop => 0x00#8 ++ 0#24
  | .init kl ivb => 0x01#8 ++ 0#11 ++ ivb ++ 0#6 ++ kl
  | .write n => 0x02#8 ++ 0#22 ++ BitVec.ofNat 2 (n - 1)
  | .flush => 0x03#8 ++ 0#24
  | .close => 0x04#8 ++ 0#24
  | .derive => 0x05#8 ++ 0#24

/-- A row of the opcode map (R104). -/
structure OpcodeRow where
  mnemonic : String
  pattern : Word
  mask : Word
deriving DecidableEq, Repr

/-- The opcode map (R104). -/
def opcodeRows : List OpcodeRow :=
  [ { mnemonic := "NOP",    pattern := 0x00000000#32, mask := 0xFFFFFFFF#32 },
    { mnemonic := "INIT",   pattern := 0x01000000#32, mask := 0xFFFFE0FC#32 },
    { mnemonic := "WRITE",  pattern := 0x02000000#32, mask := 0xFFFFFFFC#32 },
    { mnemonic := "FLUSH",  pattern := 0x03000000#32, mask := 0xFFFFFFFF#32 },
    { mnemonic := "CLOSE",  pattern := 0x04000000#32, mask := 0xFFFFFFFF#32 },
    { mnemonic := "DERIVE", pattern := 0x05000000#32, mask := 0xFFFFFFFF#32 } ]

/-- A word matches a row when `(w & mask) = match` (R104). -/
def OpcodeRow.matchesWord (r : OpcodeRow) (w : Word) : Bool := w &&& r.mask == r.pattern

/-- The mnemonic of a command, as R104 spells it. -/
def Instr.mnemonic : Instr → String
  | .nop => "NOP"
  | .init _ _ => "INIT"
  | .write _ => "WRITE"
  | .flush => "FLUSH"
  | .close => "CLOSE"
  | .derive => "DERIVE"

/-- The command word whose low `nbits` bits are those of `w` and whose other bits are 0. -/
def tableWord (nbits w : Nat) : Nat := w % 2 ^ nbits

/-- What the decoder reads from an instruction of `nbits` bits numbered as the opcode table numbers them. A command is
one 32-bit word (R100), so an instruction with a bit above bit 31 is none. -/
def decodeTableWord (nbits w : Nat) : Option Instr :=
  if tableWord nbits w < 2 ^ 32 then
    match decode (BitVec.ofNat 32 (tableWord nbits w)) with
    | .ok i => some i
    | .error _ => none
  else none

end Sys2Proof
end

