-- ==== Sys2Proof/Machine/Operands.lean ====
section
/-!
DEFINITION. Byte order of the registers (20_memory.md R76, R77), how each operand of a command is formed
(30_encoding.md R109), and the sampling of operands when a command is accepted (10_state.md R52, 70_reset R281).
-/

namespace Sys2Proof.Machine

/-- Byte `k` of a register, `R[31-8k : 24-8k]` (R76). -/
def wordByte (w : Word) (k : Nat) : Byte := w.extractLsb' (24 - 8 * k) 8

/-- The four bytes of a register, in order (R76). -/
def wordBytes (w : Word) : List Byte := [wordByte w 0, wordByte w 1, wordByte w 2, wordByte w 3]

/-- Byte `i` of a block, byte 0 in bits 127:120 (R76, R78). -/
def blockByte (b : Block) (i : Nat) : Byte := b.extractLsb' (120 - 8 * i) 8

/-- The sixteen bytes of a block, in order. -/
def blockBytes (b : Block) : List Byte := (List.range 16).map (blockByte b)

/-- `{R0, R1, R2, R3}`: the sixteen bytes of a register group (R76). -/
def groupBlock (v : Vector Word 4) : Block := v[0] ++ v[1] ++ v[2] ++ v[3]

/-- Register `i` of the group that holds a block: the inverse of `groupBlock` (R40, R76). -/
def blockWord (b : Block) (i : Nat) : Word := b.extractLsb' (96 - 32 * i) 32

/-- The bytes of `KEY0`-`KEY7` (R36, R76). -/
def State.keyBytes (s : State) : List Byte := s.keyReg.toList.flatMap wordBytes

/-- `{IOFF_HI, IOFF_LO}` (R34, R77). -/
def State.ioff (s : State) : DWord := s.ioffHi ++ s.ioffLo

/-- `{TCNT_HI, TCNT_LO}` (R39, R77). -/
def State.tcnt (s : State) : DWord := s.tcntHi ++ s.tcntLo

/-- The data bytes of a WRITE of `n` bytes: `DIN` bytes 0 to n-1 (R77, R103). -/
def State.dinBytes (s : State) (n : Nat) : List Byte := (wordBytes s.din).take n

/-- The key length in bytes that a `KL` code declares; code 3 has none (R102, R107, R109). -/
def keyLength (kl : BitVec 2) : Option Nat :=
  if kl = 0#2 then some 16 else if kl = 1#2 then some 24 else if kl = 2#2 then some 32 else none

/-- The capacity for a requested size: `bufreq - (bufreq mod 16)` (R205). -/
def roundedCapacity (bufreq : Word) : Nat := bufreq.toNat - bufreq.toNat % Config.blockBytes

/-- The pending record of a command with its operands sampled now (R52, R109). -/
def State.sample (s : State) : Instr → Pending
  | .nop => .nop
  | .init kl ivb => .init kl ivb s.keyBytes (groupBlock s.ivReg) s.ioff s.bufreq
  | .write n => .write n (s.dinBytes n) .start
  | .flush => .flush .start
  | .close => .close .start
  | .derive => .derive (groupBlock s.tiv) s.tcnt

/-- The pending record of a command word (R105): a word without a command is recorded as ILLEGAL (R106). -/
def State.sampleWord (s : State) (w : Word) : Pending :=
  match decode w with
  | .ok i => s.sample i
  | .error _ => .illegal

/-- Acceptance of a `CMD` write (R23): the record is created, `BUSY` becomes 1, nothing else changes. -/
def State.accept (s : State) (w : Word) : State := { s with cur := some (s.sampleWord w) }

/-- The command a record was created for; none for ILLEGAL. -/
def Pending.instr : Pending → Option Instr
  | .nop => some .nop
  | .init kl ivb _ _ _ _ => some (.init kl ivb)
  | .write n _ _ => some (.write n)
  | .flush _ => some .flush
  | .close _ => some .close
  | .derive _ _ => some .derive
  | .illegal => none

/-- The record that command `i` runs from: the pending one if it is `i`'s; if none is pending, the one its acceptance
would create now (R23, R281). While another command is pending there is none: the `CMD` write of `i` stalls (R280;
log 6). -/
def State.recordFor (s : State) (i : Instr) : Option Pending :=
  match s.cur with
  | none => some (s.sample i)
  | some p => if p.instr = some i then some p else none

end Sys2Proof.Machine
end

