-- ==== Sys2Proof/Machine/Bus.lean ====
section
/-!
DEFINITION. The register window: the register map (10_state.md R20), reads and writes by access type (20_memory.md R71,
R72), and the contents of every register (10_state.md R22 to R41).
-/

namespace Sys2Proof.Machine

/-- The host-visible registers (R20). -/
inductive Reg where
  | id
  | cmd
  | status
  | din
  | cap
  | fill
  | pad
  | outcnt
  | offLo
  | offHi
  | ctrLo
  | ctrHi
  | ioffLo
  | ioffHi
  | bufreq
  | key (i : Fin 8)
  | iv (i : Fin 4)
  | tiv (i : Fin 4)
  | tcntLo
  | tcntHi
  | div (i : Fin 4)
deriving DecidableEq, Repr

/-- The access types (R20). -/
inductive AccessType where
  /-- Read-only: writes are ignored. -/
  | ro
  /-- Write-only: reads return 0. -/
  | wo
  /-- Read-write. -/
  | rw
deriving DecidableEq, Repr

/-- The access type of each register (R20). -/
def Reg.access : Reg → AccessType
  | .cmd | .key _ | .iv _ => .wo
  | .din | .ioffLo | .ioffHi | .bufreq | .tiv _ | .tcntLo | .tcntHi => .rw
  | .id | .status | .cap | .fill | .pad | .outcnt | .offLo | .offHi | .ctrLo | .ctrHi | .div _ => .ro

/-- The register map (R20). -/
def registerMap : List (BitVec 8 × Reg) :=
  [ (0x00#8, .id), (0x04#8, .cmd), (0x08#8, .status), (0x0C#8, .din),
    (0x10#8, .cap), (0x14#8, .fill), (0x18#8, .pad), (0x1C#8, .outcnt),
    (0x20#8, .offLo), (0x24#8, .offHi), (0x28#8, .ctrLo), (0x2C#8, .ctrHi),
    (0x30#8, .ioffLo), (0x34#8, .ioffHi), (0x38#8, .bufreq),
    (0x40#8, .key 0), (0x44#8, .key 1), (0x48#8, .key 2), (0x4C#8, .key 3),
    (0x50#8, .key 4), (0x54#8, .key 5), (0x58#8, .key 6), (0x5C#8, .key 7),
    (0x60#8, .iv 0), (0x64#8, .iv 1), (0x68#8, .iv 2), (0x6C#8, .iv 3),
    (0x70#8, .tiv 0), (0x74#8, .tiv 1), (0x78#8, .tiv 2), (0x7C#8, .tiv 3),
    (0x80#8, .tcntLo), (0x84#8, .tcntHi),
    (0x90#8, .div 0), (0x94#8, .div 1), (0x98#8, .div 2), (0x9C#8, .div 3) ]

/-- The register at an offset; none at a reserved offset (R20, R41). -/
def regAt (offset : BitVec 8) : Option Reg := registerMap.lookup offset

/-- The offset of a register (R20). -/
def Reg.offset : Reg → BitVec 8
  | .id => 0x00
  | .cmd => 0x04
  | .status => 0x08
  | .din => 0x0C
  | .cap => 0x10
  | .fill => 0x14
  | .pad => 0x18
  | .outcnt => 0x1C
  | .offLo => 0x20
  | .offHi => 0x24
  | .ctrLo => 0x28
  | .ctrHi => 0x2C
  | .ioffLo => 0x30
  | .ioffHi => 0x34
  | .bufreq => 0x38
  | .key i => BitVec.ofNat 8 (0x40 + 4 * i.val)
  | .iv i => BitVec.ofNat 8 (0x60 + 4 * i.val)
  | .tiv i => BitVec.ofNat 8 (0x70 + 4 * i.val)
  | .tcntLo => 0x80
  | .tcntHi => 0x84
  | .div i => BitVec.ofNat 8 (0x90 + 4 * i.val)

/-- The identification constant (R22). -/
def idWord : Word := 0x4B435452

/-- A byte count in bits 16:0 of a register (R31). -/
def countWord (n : Nat) : Word := (BitVec.ofNat 17 n).setWidth 32

/-- `CTR` as a 64-bit value (R33). -/
def State.ctrWord (s : State) : DWord := BitVec.ofNat 64 s.ctr

/-- What a read of a register returns: its value, or 0 for a write-only register (R72). -/
def Reg.read (s : State) : Reg → Word
  | .id => idWord
  | .cmd => 0
  | .status => s.statusWord
  | .din => s.din
  | .cap => countWord s.cap
  | .fill => countWord s.fill
  | .pad => (BitVec.ofNat 4 s.pad).setWidth 32
  | .outcnt => countWord s.outQ.length
  | .offLo => s.off.extractLsb 31 0
  | .offHi => s.off.extractLsb 63 32
  | .ctrLo => s.ctrWord.extractLsb 31 0
  | .ctrHi => s.ctrWord.extractLsb 63 32
  | .ioffLo => s.ioffLo
  | .ioffHi => s.ioffHi
  | .bufreq => s.bufreq
  | .key _ => 0
  | .iv _ => 0
  | .tiv i => s.tiv[i]
  | .tcntLo => s.tcntLo
  | .tcntHi => s.tcntHi
  | .div i => blockWord s.div i

/-- What a write does to a register other than `CMD`: it is stored if the register is RW or WO, and ignored if it is RO
(R72). `CMD` stores nothing (R23): see `hostStep`. -/
def Reg.write (s : State) (v : Word) : Reg → State
  | .din => { s with din := v }
  | .ioffLo => { s with ioffLo := v }
  | .ioffHi => { s with ioffHi := v }
  | .bufreq => { s with bufreq := v }
  | .key i => { s with keyReg := s.keyReg.set i v }
  | .iv i => { s with ivReg := s.ivReg.set i v }
  | .tiv i => { s with tiv := s.tiv.set i v }
  | .tcntLo => { s with tcntLo := v }
  | .tcntHi => { s with tcntHi := v }
  | .id => s
  | .cmd => s
  | .status => s
  | .cap => s
  | .fill => s
  | .pad => s
  | .outcnt => s
  | .offLo => s
  | .offHi => s
  | .ctrLo => s
  | .ctrHi => s
  | .div _ => s

/-- `BusRead(offset)` (R72); a reserved offset reads 0 (R41). -/
def busRead (s : State) (offset : BitVec 8) : Word :=
  match regAt offset with
  | some r => r.read s
  | none => 0

/-- `BusWrite(offset, v)` at an offset other than `CMD`'s (R72); a write to a reserved offset is ignored (R41). -/
def busWrite (s : State) (offset : BitVec 8) (v : Word) : State :=
  match regAt offset with
  | some r => r.write s v
  | none => s

/-- An access is a transaction when it is 32 bits wide at a multiple of 4 (R71). -/
def isTransaction (offset : BitVec 8) (bits : Nat) : Bool := decide (bits = 32 ∧ offset.toNat % 4 = 0)

end Sys2Proof.Machine
end

