-- ==== Sys2Proof/Machine/Counter.lean ====
section
/-!
DEFINITION. The big-endian counter adder (40_counter_arithmetic.md R130 to R137) and the DERIVE command (R139).
-/

namespace Sys2Proof.Machine

/-- `BE(s)`: the big-endian value of a byte sequence (R8). -/
def be : List Byte → Nat
  | [] => 0
  | b :: s => b.toNat * 2 ^ (8 * s.length) + be s

/-- `BEbytes_n(v)`: the `n` bytes whose big-endian value is `v` (R8). -/
def beBytes : Nat → Nat → List Byte
  | 0, _ => []
  | n + 1, v => BitVec.ofNat 8 (v / 2 ^ (8 * n)) :: beBytes n v

/-- `deriveIV(b, c)` for an IV of any width (R6, R130). -/
def deriveIV (b : List Byte) (c : DWord) : List Byte :=
  beBytes b.length ((be b + c.toNat) % 2 ^ (8 * b.length))

/-- The counter byte added at place `k`, counted from the least significant byte: the counter has eight (R131). -/
def addendByte (c : DWord) (k : Nat) : Byte := if k < 8 then c.extractLsb' (8 * k) 8 else 0

/-- The carry chain of R131, over the bytes from the least significant on. -/
def carryChain (c : DWord) : Nat → Nat → List Byte → List Byte
  | _, _, [] => []
  | k, carry, b :: rest =>
    BitVec.ofNat 8 ((b.toNat + (addendByte c k).toNat + carry) % 256)
      :: carryChain c (k + 1) ((b.toNat + (addendByte c k).toNat + carry) / 256) rest

/-- `deriveIV_serial(b, c)` (R131). -/
def deriveIVSerial (b : List Byte) (c : DWord) : List Byte := (carryChain c 0 0 b.reverse).reverse

/-- The adder as the hardware instantiates it, at sixteen bytes (R6, R130): `(BE(b) + c) mod 2^128`. -/
def deriveBlock (b : Block) (c : DWord) : Block := BitVec.ofNat 128 ((b.toNat + c.toNat) % 2 ^ 128)

/-- The counter block of stream block `k` (R137). -/
def counterBlock (biv : Block) (k : Nat) : Block := deriveBlock biv (BitVec.ofNat 64 k)

/-- DERIVE (R139). -/
def execDerive (s : State) : Host.Outcome State Fault Refusal :=
  match s.recordFor .derive with
  | some (.derive t c) => .next ({ s with div := deriveBlock t c }.succeed)
  | _ => .next s

end Sys2Proof.Machine
end

