-- ==== Sys2Proof/Machine/Process.lean ====
section
/-!
DEFINITION. `process` with its primitive invocations (41_stream_transform.md R153 to R162), and the PROC and DRAIN
stages that FLUSH and CLOSE share (R167, 42_lifecycle.md R209).
-/

namespace Sys2Proof.Machine

/-- The invocations for a list of counter blocks, in order, stopping at the first `FAIL` (R155, R159). Answers the
keystream blocks, or none if one failed, and the record of invocations with those made added. -/
def runPrimitive (P : Primitive) (key : List Byte) : List Block → List Block → Option (List Block) × List Block
  | [], log => (some [], log)
  | cb :: cbs, log =>
    if P.fails log.length then (none, log ++ [cb])
    else
      match runPrimitive P key cbs (log ++ [cb]) with
      | (some ks, log') => (some (P.E key cb :: ks), log')
      | (none, log') => (none, log')

/-- The number of blocks a process touches, `(st.fill + 15) div 16`, the padding block included (R155, R159). -/
def State.blockCount (s : State) : Nat := (s.fill + 15) / Config.blockBytes

/-- The counter blocks of a process, in ascending block order from block `CTR` on (R155, R159). -/
def State.counterBlocks (s : State) : List Block :=
  (List.range s.blockCount).map fun j => counterBlock s.biv (s.ctr + j)

/-- The occupied bytes of the buffer combined with the keystream by exclusive OR (R156); the first `PAD` of them are
dropped (R157). -/
def transformed (s : State) (ks : List Block) : List Byte :=
  (List.zipWith (fun x k => x ^^^ k) s.readIn (ks.flatMap blockBytes)).drop s.pad

/-- The commit of a process (R161): emission, the new offset, `reinit`. -/
def State.commit (s : State) (ks : List Block) : State :=
  State.reinit { s.emit (transformed s ks) with off := s.off + BitVec.ofNat 64 s.stagedCount }

/-- What `process` answers: `DONE` or `FAILED` with the state it leaves, or an access to an index that does not exist
(log 12). -/
inductive ProcessResult where
  | done (s : State)
  | failed (s : State)
  | badIndex (index : Nat)
deriving DecidableEq, Repr

/-- `process()` (R153, R155, R160). On `FAILED` only the record of invocations has changed. -/
def process (P : Primitive) (s : State) : ProcessResult :=
  if s.fill = s.pad then .done s
  else if Config.bufMax < s.fill then .badIndex Config.bufMax
  else
    match runPrimitive P s.key s.counterBlocks s.primLog with
    | (some ks, log) => .done ({ s with primLog := log }.commit ks)
    | (none, log) => .failed { s with primLog := log }

/-- The DRAIN stage: `hold until out_q = []`, then the command's end. -/
def drainStage (record : DrainStage → Pending) (finish : State → State) (s : State) :
    Host.Outcome State Fault Refusal :=
  if s.outQ = [] then .next (finish s) else .next { s with cur := some (record .drain) }

/-- The PROC stage and what follows it: process what is staged, once the output queue is empty, then DRAIN. -/
def procStage (P : Primitive) (record : DrainStage → Pending) (finish : State → State) (s : State) :
    Host.Outcome State Fault Refusal :=
  if s.pad < s.fill then
    if s.outQ = [] then
      match process P s with
      | .done t => drainStage record finish t
      | .failed t => .next t.enterFault
      | .badIndex i => .fault (.bufferIndex i)
    else .next { s with cur := some (record .proc) }
  else drainStage record finish s

end Sys2Proof.Machine
end

