-- ==== Sys2Proof/Machine/Lifecycle.lean ====
section
/-!
DEFINITION. The lifecycle commands NOP (42_lifecycle.md R200), INIT (R201 to R208), CLOSE (R209 to R213) and the reserved
words (R214).
-/

namespace Sys2Proof.Machine

/-- NOP (R200). -/
def execNop (s : State) : Host.Outcome State Fault Refusal :=
  match s.recordFor .nop with
  | some .nop => .next s.succeed
  | _ => .next s

/-- Every INIT that executes clears the staging registers (R203, R204). -/
def State.clearStaging (s : State) : State :=
  { s with keyReg := Vector.replicate 8 0, ivReg := Vector.replicate 4 0 }

/-- What a successful INIT leaves (R201, R207). -/
def State.construct (s : State) (key : List Byte) (biv : Block) (cap : Nat) (off : DWord) : State :=
  { State.reinit { s with key := key, biv := biv, cap := cap, off := off, bufIn := [], outQ := [] } with
    phase := .opened, err := .ok, cur := none }

/-- INIT with its sampled operands (R201); the order of its checks is R202's. -/
def initCommand (kl : BitVec 2) (ivb : BitVec 5) (key32 : List Byte) (iv16 : Block) (ioff : DWord) (bufreq : Word)
    (s : State) : State :=
  if s.phase = .opened then s.clearStaging.fail .illegalState
  else
    match keyLength kl with
    | none => s.clearStaging.fail .invalidKeyMaterial
    | some len =>
      if ivb ≠ 16#5 then s.clearStaging.fail .invalidKeyMaterial
      else if roundedCapacity bufreq < 16 ∨ Config.bufMax < roundedCapacity bufreq then
        s.clearStaging.fail .invalidBufferSize
      else s.clearStaging.construct (key32.take len) iv16 (roundedCapacity bufreq) ioff

/-- INIT (R201). -/
def execInit (kl : BitVec 2) (ivb : BitVec 5) (s : State) : Host.Outcome State Fault Refusal :=
  match s.recordFor (.init kl ivb) with
  | some (.init k v key32 iv16 ioff bufreq) => .next (initCommand k v key32 iv16 ioff bufreq s)
  | _ => .next s

/-- The end of a CLOSE: the secrets and the buffer are cleared, the phase becomes CLOSED (R209, R210). -/
def State.closeInstance (s : State) : State := { s.release with phase := .closed }.succeed

/-- CLOSE from its pending record (R209, R211, R212, R213). -/
def closeCommand (P : Primitive) (s : State) : Host.Outcome State Fault Refusal :=
  match s.recordFor .close with
  | some (.close .start) =>
    match s.phase with
    | .uninit => .next (s.fail .notOpen)
    | .closed => .next (s.fail .streamClosed)
    | .fault => .next ({ s with phase := .closed }.succeed)
    | .opened => procStage P .close State.closeInstance s
  | some (.close .proc) => procStage P .close State.closeInstance s
  | some (.close .drain) => drainStage .close State.closeInstance s
  | _ => .next s

/-- CLOSE (R209). -/
def execClose (s : State) : Host.Outcome State Fault Refusal := closeCommand Config.primitive s

/-- A reserved or malformed command (R214). It is no row of the opcode table; the engine step runs it. -/
def execIllegal (s : State) : Host.Outcome State Fault Refusal := .next (s.fail .illegalCommand)

end Sys2Proof.Machine
end

