-- ==== Sys2Proof/Machine/Stream.lean ====
section
/-!
DEFINITION. The stream commands WRITE (41_stream_transform.md R163 to R166) and FLUSH (R167, R168).
-/

namespace Sys2Proof.Machine

/-- The offset-limit check of a WRITE of `n` bytes: the stream would pass `2^64 - 1` (R165). -/
def State.pastOffsetLimit (s : State) (n : Nat) : Bool :=
  decide (Config.offLimit < s.off.toNat + s.stagedCount + n)

/-- The RUN stage of WRITE (R163). `rounds` bounds the spec's loop: a WRITE makes at most one process (R166), so two
rounds always end it (log 14). -/
def writeLoop (P : Primitive) (n : Nat) : Nat → List Byte → State → Host.Outcome State Fault Refusal
  | 0, rem, s => .next { s with cur := some (.write n rem .run) }
  | rounds + 1, rem, s =>
    match appendWhile rem s with
    | .error f => .fault f
    | .ok (rem', t) =>
      if t.fill = t.cap then
        if t.outQ = [] then
          match process P t with
          | .done u => writeLoop P n rounds rem' u
          | .failed u => .next u.enterFault
          | .badIndex i => .fault (.bufferIndex i)
        else .next { t with cur := some (.write n rem' .run) }
      else .next t.succeed

/-- WRITE from its pending record (R163, R164). -/
def writeCommand (P : Primitive) (n : Nat) (s : State) : Host.Outcome State Fault Refusal :=
  match s.recordFor (.write n) with
  | some (.write _ rem .start) =>
    match s.phase with
    | .uninit => .next (s.fail .notOpen)
    | .closed => .next (s.fail .streamClosed)
    | .fault => .next (s.fail .instanceFaulted)
    | .opened =>
      if s.pastOffsetLimit rem.length then .next (s.fail .offsetLimit) else writeLoop P n 2 rem s
  | some (.write _ rem .run) => writeLoop P n 2 rem s
  | _ => .next s

/-- FLUSH from its pending record (R167). -/
def flushCommand (P : Primitive) (s : State) : Host.Outcome State Fault Refusal :=
  match s.recordFor .flush with
  | some (.flush .start) =>
    match s.phase with
    | .uninit => .next (s.fail .notOpen)
    | .closed => .next (s.fail .streamClosed)
    | .fault => .next (s.fail .instanceFaulted)
    | .opened => procStage P .flush State.succeed s
  | some (.flush .proc) => procStage P .flush State.succeed s
  | some (.flush .drain) => drainStage .flush State.succeed s
  | _ => .next s

/-- WRITE (R163). -/
def execWrite (n : Nat) (s : State) : Host.Outcome State Fault Refusal := writeCommand Config.primitive n s

/-- FLUSH (R167). -/
def execFlush (s : State) : Host.Outcome State Fault Refusal := flushCommand Config.primitive s

end Sys2Proof.Machine
end

