-- ==== Sys2Proof/Machine/Dispatch.lean ====
section
/-!
DEFINITION. The meaning of each command, one arm per constructor of Instr.
-/

namespace Sys2Proof.Machine

def exec (i : Instr) (s : State) : Host.Outcome State Fault Refusal :=
  match i with
  | .nop => Sys2Proof.Machine.execNop s
  | .init kl ivb => Sys2Proof.Machine.execInit kl ivb s
  | .write n => Sys2Proof.Machine.execWrite n s
  | .flush => Sys2Proof.Machine.execFlush s
  | .close => Sys2Proof.Machine.execClose s
  | .derive => Sys2Proof.Machine.execDerive s

end Sys2Proof.Machine
end

