-- ==== Sys2Proof/Machine/Agents.lean ====
section
/-!
DEFINITION. One step of each agent (20_memory.md R82): the host's accesses (R70 to R73, 70_reset R280), the engine's step
on the pending command (41_stream_transform.md R150), and the choice of the agent that moves next.
-/

namespace Sys2Proof.Machine

/-- What the host does next: the oldest operation placed for it, or a free one (log 4). -/
def State.nextHostOp (s : State) : HostOp :=
  match s.hostQ with
  | op :: _ => op
  | [] => Config.hostOp s.hostSeq

/-- The host's operation has been carried out. -/
def State.popHost (s : State) : State :=
  match s.hostQ with
  | _ :: q => { s with hostQ := q }
  | [] => { s with hostSeq := s.hostSeq + 1 }

/-- Which agent moves next: the oldest choice placed, or a free one (log 3). -/
def State.nextAgent (s : State) : Agent :=
  match s.sched with
  | a :: _ => a
  | [] => Config.agent s.tick

/-- The scheduling choice has been used. -/
def State.popAgent (s : State) : State :=
  match s.sched with
  | _ :: q => { s with sched := q }
  | [] => { s with tick := s.tick + 1 }

/-- A `BusRead`: the host gets the value, the block does not change (R72, R73). -/
def State.hostRead (s : State) (offset : BitVec 8) : State := { s with rdata := busRead s offset }

/-- One step of the host. A `CMD` write is accepted when no command is pending; until then it stalls, and the host with
it (R83, R280). A turn of `wait` reads `STATUS` and is over when `BUSY` was 0 (R110). -/
def hostStep (s : State) : Host.Outcome State Fault Refusal :=
  match s.nextHostOp with
  | .wait => if s.busy then .next (s.hostRead 0x08) else .next (s.hostRead 0x08).popHost
  | .access (.read offset bits) =>
    if isTransaction offset bits then .next (s.hostRead offset).popHost
    else .refused (.notATransaction offset bits)
  | .access (.write offset bits v) =>
    if isTransaction offset bits then
      if offset = Reg.cmd.offset then
        if s.busy then .next s else .next (s.accept v).popHost
      else .next (busWrite s offset v).popHost
    else .refused (.notATransaction offset bits)

/-- One step of the engine (R150): not enabled while no command is pending or the pending one holds; otherwise the
pending command runs from its recorded stage. -/
def engineStep (s : State) : Host.Outcome State Fault Refusal :=
  match s.cur with
  | none => .next s
  | some p =>
    if s.hold then .next s
    else
      match p.instr with
      | some i => exec i s
      | none => execIllegal s

/-- One step of the given agent. An agent without an enabled step leaves the state as it is (log 3). -/
def agentStep (a : Agent) (s : State) : Host.Outcome State Fault Refusal :=
  match a with
  | .host => hostStep s
  | .engine => engineStep s
  | .sink => .next (sinkStep s)
  | .reset => .next s.resetBlock

end Sys2Proof.Machine
end

