-- ==== Sys2Proof/Machine/Step.lean ====
section
/-!
DEFINITION. The step of the machine: the agent that moves next takes one step (20_memory.md R82). And where the engine
takes its next command from: the pending record `st.cur` (10_state.md R21, R52; the block fetches nothing, R87).
-/

namespace Sys2Proof.Machine

/-- One step (R82). -/
def step (s : State) : Host.Outcome State Fault Refusal := agentStep s.nextAgent s.popAgent

/-- `s` with the command word accepted as the pending command, its operands sampled from the registers of `s`, and the
engine to move next: what an accepted `CMD` write leaves (R23), so that the very next step runs the command (log 5). -/
def State.withFetchWord (s : State) (nbits w : Nat) : State :=
  { s.accept (BitVec.ofNat 32 (tableWord nbits w)) with sched := .engine :: s.sched }

end Sys2Proof.Machine
end

