-- ==== Sys2Proof/Safety.lean ====
section
/-!
DEFINITION. The terms in which statements speak of the machine: the invariant of reachable states (10_state.md R53, with
what it takes to be kept by every step), the output law's vocabulary (41_stream_transform.md R171), and what the host can
see (20_memory.md R91, 60_exceptions.md R241).
-/

namespace Sys2Proof.Machine

/-! ### Runs and outcomes -/

/-- `k` steps, stopping at the first that is not a next state. -/
def run : Nat → State → Host.Outcome State Fault Refusal
  | 0, s => .next s
  | k + 1, s =>
    match step s with
    | .next t => run k t
    | .fault f => .fault f
    | .refused r => .refused r

/-- An outcome with a change made to its next state. -/
def mapNext (f : State → State) : Host.Outcome State Fault Refusal → Host.Outcome State Fault Refusal
  | .next t => .next (f t)
  | .fault e => .fault e
  | .refused r => .refused r

/-! ### The error matrix -/

/-- The codes a command can end with, by the phase at its start (R232). -/
def allowedCodes : Pending → Phase → List ErrCode
  | .nop, _ => [.ok]
  | .derive _ _, _ => [.ok]
  | .illegal, _ => [.illegalCommand]
  | .init .., .opened => [.illegalState]
  | .init .., _ => [.invalidKeyMaterial, .invalidBufferSize, .ok]
  | .write .., .uninit => [.notOpen]
  | .write .., .opened => [.offsetLimit, .primitiveFailure, .ok]
  | .write .., .closed => [.streamClosed]
  | .write .., .fault => [.instanceFaulted]
  | .flush _, .uninit => [.notOpen]
  | .flush _, .opened => [.primitiveFailure, .ok]
  | .flush _, .closed => [.streamClosed]
  | .flush _, .fault => [.instanceFaulted]
  | .close _, .uninit => [.notOpen]
  | .close _, .opened => [.primitiveFailure, .ok]
  | .close _, .closed => [.streamClosed]
  | .close _, .fault => [.ok]

/-! ### The invariant -/

/-- What a pending record satisfies: the sampled operands have their widths, and a record past its START stage belongs to
an open instance whose checks passed (R52, R163, R167, R209). -/
def State.pendingOk (s : State) : Prop :=
  match s.cur with
  | some (.init _ _ key32 _ _ _) => key32.length = 32
  | some (.write _ rem .start) => rem.length ≤ 4
  | some (.write _ rem .run) =>
    s.phase = .opened ∧ rem.length ≤ 4 ∧ s.fill = s.cap ∧
      s.off.toNat + s.stagedCount + rem.length ≤ Config.offLimit
  | some (.flush .proc) => s.phase = .opened
  | some (.flush .drain) => s.phase = .opened ∧ s.fill = s.pad
  | some (.close .proc) => s.phase = .opened
  | some (.close .drain) => s.phase = .opened ∧ s.fill = s.pad
  | _ => True

/-- A WRITE is past its START stage. -/
def State.writeRunning (s : State) : Prop :=
  match s.cur with
  | some (.write _ _ .run) => True
  | _ => False

/-- The invariant: R53 with the ranges of R45 and what R210 and R235 clear. -/
structure State.Inv (s : State) : Prop where
  /-- R48. -/
  capRange : s.phase ≠ .uninit → 16 ≤ s.cap ∧ s.cap ≤ Config.bufMax ∧ s.cap % 16 = 0
  /-- R53, first line. -/
  fillRange : s.phase ≠ .uninit → s.pad ≤ s.fill ∧ s.fill ≤ s.cap
  /-- R55: before the first INIT. -/
  uninitZero : s.phase = .uninit → s.cap = 0 ∧ s.fill = 0 ∧ s.off = 0
  /-- R53, second line; a WRITE in its RUN stage may have filled the buffer (R164). -/
  roomLeft : s.phase = .opened → ¬ s.writeRunning → s.fill < s.cap
  /-- R53, third line. -/
  outBound : s.outQ.length ≤ s.cap
  /-- R53, fourth line. -/
  outEmpty : s.phase ≠ .opened → s.outQ = []
  /-- R53, fifth line. -/
  keyOpen : s.phase = .opened → s.key.length = 16 ∨ s.key.length = 24 ∨ s.key.length = 32
  /-- R53, fifth line; R210, R235. -/
  secretsCleared : s.phase ≠ .opened → s.key = [] ∧ s.biv = 0 ∧ s.bufIn = []
  /-- R53, sixth line. -/
  offsetBound : s.off.toNat + s.stagedCount ≤ Config.offLimit
  /-- The storage of `buf_in` is in canonical form. -/
  bufferWf : s.bufIn.wf = true
  /-- The pending record. -/
  pendingWf : s.pendingOk

/-! ### Invocations of the primitive -/

/-- None of the `n` invocations numbered from `start` on returns `FAIL` (R158). -/
def callsSucceed (P : Primitive) : Nat → Nat → Bool
  | _, 0 => true
  | start, n + 1 => !P.fails start && callsSucceed P (start + 1) n

/-- How many of the `n` invocations numbered from `start` on are made: up to the first that returns `FAIL`, that one
included (R159). -/
def callsMade (P : Primitive) : Nat → Nat → Nat
  | _, 0 => 0
  | start, n + 1 => if P.fails start then 1 else callsMade P (start + 1) n + 1

/-! ### The output law -/

/-- The staged data bytes `buf_in[PAD .. st.fill)`, in stream order (R50). -/
def State.staged (s : State) : List Byte := s.bufIn.readFrom s.pad s.stagedCount

/-- The keystream byte of stream position `pos`: `E(K, deriveIV(V, pos div 16))[pos mod 16]` (R171). -/
def keystreamByte (P : Primitive) (key : List Byte) (biv : Block) (pos : Nat) : Byte :=
  blockByte (P.E key (counterBlock biv (pos / 16))) (pos % 16)

/-- The transform of the data bytes that stand at the stream positions from `pos` on (R171). -/
def streamXor (P : Primitive) (key : List Byte) (biv : Block) : Nat → List Byte → List Byte
  | _, [] => []
  | pos, d :: data => (d ^^^ keystreamByte P key biv pos) :: streamXor P key biv (pos + 1) data

/-- The bytes of the pending WRITE that are still to be appended: none for a WRITE that its START stage will refuse
(R163). -/
def State.unappended (s : State) : List Byte :=
  match s.cur with
  | some (.write _ rem .start) => if s.pastOffsetLimit rem.length then [] else rem
  | some (.write _ rem .run) => rem
  | _ => []

/-- The data bytes the block has taken and not yet transformed, in stream order. -/
def State.waiting (s : State) : List Byte := s.staged ++ s.unappended

/-- What the sink will have received once everything taken so far is transformed and delivered: the bytes it has, those in
`out_q`, and the transform of the waiting bytes. -/
def State.eventual (P : Primitive) (s : State) : List Byte :=
  s.sinkLog ++ s.outQ ++ streamXor P s.key s.biv s.off.toNat s.waiting

/-- The data bytes that the next step takes in: those of a WRITE that is accepted and that the offset limit allows. -/
def State.acceptedNow (s : State) : List Byte :=
  match s.nextAgent, s.nextHostOp with
  | .host, .access (.write offset bits v) =>
    if isTransaction offset bits ∧ offset = Reg.cmd.offset ∧ s.busy = false then
      match decode v with
      | .ok (.write n) => if s.pastOffsetLimit (s.dinBytes n).length then [] else s.dinBytes n
      | _ => []
    else []
  | _, _ => []

/-- The data bytes taken in during the next `k` steps, in acceptance order. -/
def acceptedData : Nat → State → List Byte
  | 0, _ => []
  | k + 1, s =>
    s.acceptedNow ++
      match step s with
      | .next t => acceptedData k t
      | _ => []

/-- Each of the next `k` steps starts with the instance open and is no reset. -/
def openRun : Nat → State → Bool
  | 0, _ => true
  | k + 1, s =>
    decide (s.phase = .opened) && decide (s.nextAgent ≠ .reset) &&
      match step s with
      | .next t => openRun k t
      | _ => false

/-! ### What the host can see -/

/-- Two pending records agree in all but key bytes, base IV and data bytes. -/
def Pending.sameView : Pending → Pending → Prop
  | .init k v _ _ o b, .init k' v' _ _ o' b' => k = k' ∧ v = v' ∧ o = o' ∧ b = b'
  | .write n r st, .write n' r' st' => n = n' ∧ r.length = r'.length ∧ st = st'
  | p, q => p = q

/-- Two states agree in all but the secrets and the contents of the buffers (R91, R241): the staged and latched key and
base IV, the bytes in `buf_in`, in `out_q`, in the sink's log and in the record of invocations; their counts agree. -/
structure State.sameView (s t : State) : Prop where
  phase : s.phase = t.phase
  err : s.err = t.err
  cur : match s.cur, t.cur with
    | none, none => True
    | some p, some q => p.sameView q
    | _, _ => False
  cap : s.cap = t.cap
  off : s.off = t.off
  fill : s.fill = t.fill
  outCount : s.outQ.length = t.outQ.length
  div : s.div = t.div
  din : s.din = t.din
  ioffLo : s.ioffLo = t.ioffLo
  ioffHi : s.ioffHi = t.ioffHi
  bufreq : s.bufreq = t.bufreq
  tiv : s.tiv = t.tiv
  tcntLo : s.tcntLo = t.tcntLo
  tcntHi : s.tcntHi = t.tcntHi
  primCount : s.primLog.length = t.primLog.length
  rdata : s.rdata = t.rdata
  hostQ : s.hostQ = t.hostQ
  hostSeq : s.hostSeq = t.hostSeq
  sched : s.sched = t.sched
  tick : s.tick = t.tick

end Sys2Proof.Machine
end

