-- ==== Sys2Proof/Certificates/Slice0/Obligations.lean ====
section
/-!
DEFINITION. The statements about the machine. Each docstring names the rules of spec/ it formalises. A statement about a
command speaks of a state `s` in which none is pending: `s.accept (encode i)` is `s` with the command accepted by its
`CMD` write (10_state.md R23), and `exec i` of that state is the engine's step on it (41_stream_transform.md R150).
`StepRunsTheDecodedCommand` and `CmdWriteIsAccepted` carry these statements over to the steps of a run.
-/

open Sys2Proof Sys2Proof.Machine

/-! ### Encoding -/

/-- Decoding the word of a well-formed command gives the command back (R100 to R105). -/
def Obligations.DecodeEncodeRoundTrip : Prop :=
  ∀ i : Instr, i.wellFormed = true → decode (encode i) = .ok i

/-- A word that decodes is the word of the command it decodes to, and that command is well formed (R100 to R105). -/
def Obligations.EncodeDecodeRoundTrip : Prop :=
  ∀ (w : Word) (i : Instr), decode w = .ok i → i.wellFormed = true ∧ encode i = w

/-- R104: the rows' match and mask say which words decode and to which mnemonic, with the fields at the rows' bit
places, and no word matches two rows. -/
def Obligations.DecodeFollowsTheOpcodeMap : Prop :=
  ∀ w : Word,
    (∀ i, decode w = .ok i → ∃ r ∈ opcodeRows, r.matchesWord w = true ∧ r.mnemonic = i.mnemonic) ∧
    (∀ r ∈ opcodeRows, r.matchesWord w = true → ∃ i, decode w = .ok i ∧ i.mnemonic = r.mnemonic) ∧
    (∀ r ∈ opcodeRows, ∀ r' ∈ opcodeRows, r.matchesWord w = true → r'.matchesWord w = true → r = r') ∧
    (∀ kl ivb, decode w = .ok (.init kl ivb) → kl = w.extractLsb 1 0 ∧ ivb = w.extractLsb 12 8) ∧
    (∀ n, decode w = .ok (.write n) → n = (w.extractLsb 1 0).toNat + 1)

/-- Words written out from the encodings of R101 to R104 decode to the commands they stand for. -/
def Obligations.SampleWordsDecode : Prop :=
  decode 0x00000000 = .ok .nop ∧ decode 0x01001002 = .ok (.init 2 16) ∧ decode 0x02000003 = .ok (.write 4) ∧
    decode 0x03000000 = .ok .flush ∧ decode 0x04000000 = .ok .close ∧ decode 0x05000000 = .ok .derive

/-- R106, R214: which words are illegal; such a word is accepted like any command, and when it executes it completes with
`ILLEGAL_COMMAND` and changes nothing else, in any phase. -/
def Obligations.IllegalWordsOnlySetErr : Prop :=
  ∀ w : Word,
    (6 ≤ (w.extractLsb 31 24).toNat ∨
      ((w.extractLsb 31 24).toNat ∈ [0, 3, 4, 5] ∧ w.extractLsb 23 0 ≠ 0) ∨
      ((w.extractLsb 31 24).toNat = 1 ∧ (w.extractLsb 23 13 ≠ 0 ∨ w.extractLsb 7 2 ≠ 0)) ∨
      ((w.extractLsb 31 24).toNat = 2 ∧ w.extractLsb 23 2 ≠ 0)) →
    ∀ s : State, s.cur = none →
      (s.accept w).busy = true ∧ engineStep (s.accept w) = .next { s with err := .illegalCommand }

/-- R107: `KL = 3` and `IVB` other than 16 decode to INIT, which fails with `INVALID_KEY_MATERIAL` when no instance is
open. -/
def Obligations.BadWidthsDecodeButFail : Prop :=
  ∀ (s : State) (kl : BitVec 2) (ivb : BitVec 5), (kl = 3 ∨ ivb ≠ 16) →
    decode (encode (.init kl ivb)) = .ok (.init kl ivb) ∧
    (s.cur = none → s.phase ≠ .opened → ∃ t, exec (.init kl ivb) (s.accept (encode (.init kl ivb))) = .next t ∧
      t.err = .invalidKeyMaterial)

/-! ### The adder -/

/-- R131: the byte-serial carry chain computes `deriveIV` for every width. -/
def Obligations.SerialAdderAgrees : Prop :=
  ∀ (b : List Byte) (c : DWord), deriveIVSerial b c = deriveIV b c

/-- R130: the adder of any width is `BEbytes_n((BE(b) + c) mod 2^(8n))` and keeps the width of the IV; the adder of this
hardware is that function at sixteen bytes. -/
def Obligations.BlockAdderIsTheByteAdder : Prop :=
  (∀ (l : List Byte) (c : DWord),
    deriveIV l c = beBytes l.length ((be l + c.toNat) % 2 ^ (8 * l.length)) ∧ (deriveIV l c).length = l.length) ∧
  (∀ (b : Block) (c : DWord),
    blockBytes (deriveBlock b c) = beBytes 16 ((be (blockBytes b) + c.toNat) % 2 ^ 128) ∧
    blockBytes (deriveBlock b c) = deriveIV (blockBytes b) c)

/-- R133: an exact sum of `2^(8n)` or more wraps modulo `2^(8n)`; every other sum is exact. -/
def Obligations.AdderWrapsAtItsWidth : Prop :=
  ∀ (b : List Byte) (c : DWord),
    be (deriveIV b c) = (be b + c.toNat) % 2 ^ (8 * b.length) ∧
    (be b + c.toNat < 2 ^ (8 * b.length) → be (deriveIV b c) = be b + c.toNat)

/-- R134. -/
def Obligations.ZeroCounterKeepsTheIV : Prop :=
  ∀ b : List Byte, deriveIV b 0 = b

/-- R132: an IV narrower than the counter takes only the counter's low bytes. -/
def Obligations.NarrowIVIgnoresHighCounterBytes : Prop :=
  (∀ (b : List Byte) (c : DWord), b.length < 8 →
    deriveIV b c = deriveIV b (BitVec.ofNat 64 (c.toNat % 2 ^ (8 * b.length)))) ∧
  deriveIV [0xFF, 0xFF] 0x10001 = [0x00, 0x00]

/-- R138: adding in two parts is adding the sum, so counting up from the first block's IV gives each block's own. -/
def Obligations.CounterStepsCompose : Prop :=
  ∀ (b : List Byte) (c j : DWord), c.toNat + j.toNat < 2 ^ 64 →
    deriveIV b (c + j) = deriveIV (deriveIV b c) j

/-! ### DERIVE, NOP -/

/-- R139: DERIVE samples the test operands at its acceptance and writes their sum modulo `2^128` to `DIV`, sets `ERR` to
OK and touches nothing else, in every phase. -/
def Obligations.DeriveWritesTheSum : Prop :=
  (decode 0x05000000 = .ok .derive) ∧
  (∀ s : State, s.accept 0x05000000 =
    { s with cur := some (.derive (s.tiv[0] ++ s.tiv[1] ++ s.tiv[2] ++ s.tiv[3]) (s.tcntHi ++ s.tcntLo)) }) ∧
  (∀ (s : State) (t : Block) (c : DWord), s.cur = some (.derive t c) →
    exec .derive s =
      .next { s with div := BitVec.ofNat 128 ((t.toNat + c.toNat) % 2 ^ 128), err := .ok, cur := none }) ∧
  (∀ s : State, s.cur = none →
    exec .derive (s.accept (encode .derive)) = .next { s with div := deriveBlock (groupBlock s.tiv) s.tcnt, err := .ok }) ∧
  (∀ s : State, busRead s 0x90 ++ busRead s 0x94 ++ busRead s 0x98 ++ busRead s 0x9C = s.div)

/-- R200: NOP is the word 0; it sets `ERR` to OK and changes nothing else, in every phase. -/
def Obligations.NopOnlyClearsErr : Prop :=
  decode 0x00000000 = .ok .nop ∧
  ∀ s : State,
    (s.cur = none → exec .nop (s.accept (encode .nop)) = .next { s with err := .ok }) ∧
    (s.cur = some .nop → exec .nop s = .next { s with err := .ok, cur := none })

/-! ### INIT -/

/-- R201 to R204, R208: INIT's checks in their order, what each failure leaves, and the instance a success constructs.
Every INIT clears the staging registers. Its operands are those of its record: the registers at its acceptance. -/
def Obligations.InitResult : Prop :=
  ∀ (s : State) (kl : BitVec 2) (ivb : BitVec 5),
    let result (key32 : List Byte) (iv16 : Block) (ioff : DWord) (bufreq : Word) : State :=
      let cleared := { s with keyReg := Vector.replicate 8 0, ivReg := Vector.replicate 4 0, cur := none }
      let cap := bufreq.toNat - bufreq.toNat % 16
      if s.phase = .opened then { cleared with err := .illegalState }
      else if kl = 3 ∨ ivb ≠ 16 then { cleared with err := .invalidKeyMaterial }
      else if cap < 16 ∨ 65536 < cap then { cleared with err := .invalidBufferSize }
      else
        { cleared with
          phase := .opened, err := .ok, key := key32.take (16 + 8 * kl.toNat), biv := iv16, cap := cap
          off := ioff, fill := ioff.toNat % 16, bufIn := [], outQ := [] }
    (s.cur = none →
      exec (.init kl ivb) (s.accept (encode (.init kl ivb))) =
        .next (result s.keyBytes (groupBlock s.ivReg) s.ioff s.bufreq)) ∧
    (∀ key32 iv16 ioff bufreq, s.cur = some (.init kl ivb key32 iv16 ioff bufreq) →
      exec (.init kl ivb) s = .next (result key32 iv16 ioff bufreq))

/-- R205: a requested size of 16 to 65551 is legal and is rounded down to a multiple of 16; every other size fails with
`INVALID_BUFFER_SIZE`; 4097 gives 4096. -/
def Obligations.InitBufferSizes : Prop :=
  ∀ (s : State) (kl : BitVec 2), s.cur = none → s.phase ≠ .opened → kl ≠ 3 →
    ∃ t, exec (.init kl 16) (s.accept (encode (.init kl 16))) = .next t ∧
      (if 16 ≤ s.bufreq.toNat ∧ s.bufreq.toNat ≤ 65551 then
         t.phase = .opened ∧ t.err = .ok ∧ t.cap = s.bufreq.toNat - s.bufreq.toNat % 16 ∧ 16 ≤ t.cap ∧ t.cap ≤ 65536 ∧
           t.cap % 16 = 0 ∧ (s.bufreq = 4097 → t.cap = 4096)
       else t.phase = s.phase ∧ t.err = .invalidBufferSize)

/-- R206: every initial offset is legal; it sets the padding and the fill; at `2^64 - 1` every WRITE then fails with
`OFFSET_LIMIT`. -/
def Obligations.InitialOffsetSetsPadding : Prop :=
  ∀ (s : State) (kl : BitVec 2), s.cur = none → s.phase ≠ .opened → kl ≠ 3 →
    16 ≤ s.bufreq.toNat → s.bufreq.toNat ≤ 65551 →
    ∃ t, exec (.init kl 16) (s.accept (encode (.init kl 16))) = .next t ∧ t.cur = none ∧ t.phase = .opened ∧
      t.off = s.ioffHi ++ s.ioffLo ∧ t.pad = t.off.toNat % 16 ∧ t.fill = t.pad ∧
      (t.off.toNat = 2 ^ 64 - 1 → ∀ n, 1 ≤ n → n ≤ 4 → exec (.write n) (t.accept (encode (.write n))) =
        .next { t with err := .offsetLimit })

/-! ### WRITE -/

/-- R165: a WRITE that would take the stream past offset `2^64 - 1` is refused whole; no other WRITE of an open instance
completes with `OFFSET_LIMIT`. -/
def Obligations.WritePastTheLimitIsRefused : Prop :=
  ∀ (s : State) (n : Nat), s.cur = none → s.phase = .opened → 1 ≤ n → n ≤ 4 →
    (2 ^ 64 - 1 < s.off.toNat + (s.fill - s.pad) + n → exec (.write n) (s.accept (encode (.write n))) =
      .next { s with err := .offsetLimit }) ∧
    (s.off.toNat + (s.fill - s.pad) + n ≤ 2 ^ 64 - 1 →
      ∀ t, exec (.write n) (s.accept (encode (.write n))) = .next t → t.cur = none → t.err ≠ .offsetLimit)

/-- R163: a WRITE with room for its bytes stores `DIN` byte `k` at index `st.fill + k`, and changes no other byte of the
buffer and nothing else but the fill and `ERR`. -/
def Obligations.WriteAppendsItsBytes : Prop :=
  ∀ (s : State) (n : Nat), s.cur = none → s.phase = .opened → 1 ≤ n → n ≤ 4 →
    s.off.toNat + (s.fill - s.pad) + n ≤ 2 ^ 64 - 1 → s.fill + n < s.cap → s.cap ≤ 65536 → s.bufIn.wf = true →
    ∃ m, exec (.write n) (s.accept (encode (.write n))) = .next { s with bufIn := m, fill := s.fill + n, err := .ok } ∧
      (∀ k, k < n → m.read (s.fill + k) = s.din.extractLsb' (24 - 8 * k) 8) ∧
      (∀ i, (i < s.fill ∨ s.fill + n ≤ i) → m.read i = s.bufIn.read i)

/-- R163, R164: a WRITE that fills the buffer while the output queue is not empty appends what fits and holds, with the
rest of its bytes in its record. -/
def Obligations.WriteHoldsAtAFullBuffer : Prop :=
  ∀ (s : State) (n : Nat), s.cur = none → s.phase = .opened → 1 ≤ n → n ≤ 4 →
    s.off.toNat + (s.fill - s.pad) + n ≤ 2 ^ 64 - 1 → s.fill < s.cap → s.cap ≤ s.fill + n → s.cap ≤ 65536 →
    s.bufIn.wf = true → s.outQ ≠ [] →
    ∃ m, exec (.write n) (s.accept (encode (.write n))) = .next
        { s with bufIn := m, fill := s.cap, cur := some (.write n ((s.dinBytes n).drop (s.cap - s.fill)) .run) } ∧
      (∀ k, k < s.cap - s.fill → m.read (s.fill + k) = s.din.extractLsb' (24 - 8 * k) 8) ∧
      (∀ i, (i < s.fill ∨ s.cap ≤ i) → m.read i = s.bufIn.read i)

/-- R163, R164, R155, R235: a WRITE that fills the buffer with the output queue empty, or that was held at a full buffer
and finds the queue empty, processes the full buffer, with one invocation for each block, and appends the rest of its
bytes; if an invocation fails it enters FAULT instead. -/
def Obligations.WriteProcessesAFullBuffer : Prop :=
  ∀ (s : State) (n : Nat), s.Inv → s.phase = .opened → s.outQ = [] →
    let P := Config.primitive
    let blocks := (List.range (s.cap / 16)).map fun j => counterBlock s.biv (s.off.toNat / 16 + j)
    -- `t` is what the step leaves when `room` is appended before the process and `rest` after it
    let processed (room rest : List Byte) (t : State) : Prop :=
      if callsSucceed P s.primLog.length blocks.length then
        t = { s with
          outQ := streamXor P s.key s.biv s.off.toNat (s.staged ++ room)
          off := s.off + BitVec.ofNat 64 (s.cap - s.pad), fill := rest.length, bufIn := t.bufIn
          primLog := s.primLog ++ blocks, err := .ok, cur := none } ∧
        t.off.toNat = s.off.toNat + (s.cap - s.pad) ∧ t.bufIn.readFrom 0 t.fill = rest
      else
        t = { s with
          phase := .fault, key := [], biv := 0, bufIn := [], fill := s.cap, err := .primitiveFailure, cur := none
          primLog := s.primLog ++ blocks.take (callsMade P s.primLog.length blocks.length) }
    (s.cur = none → 1 ≤ n → n ≤ 4 → s.off.toNat + (s.fill - s.pad) + n ≤ 2 ^ 64 - 1 → s.cap ≤ s.fill + n →
      ∃ t, exec (.write n) (s.accept (encode (.write n))) = .next t ∧
        processed ((s.dinBytes n).take (s.cap - s.fill)) ((s.dinBytes n).drop (s.cap - s.fill)) t) ∧
    (∀ rem, s.cur = some (.write n rem .run) → ∃ t, exec (.write n) s = .next t ∧ processed [] rem t)

/-- R166: over all the engine steps of a WRITE, START and RUN, at most one process is made: a step of a pending WRITE
either makes no invocation and leaves the offset, or it makes those of one full buffer at most and ends the WRITE. And the
model's bound on the loop (log 14): more than two rounds give what two rounds give. -/
def Obligations.WriteMakesAtMostOneProcess : Prop :=
  (∀ (s t : State) (n : Nat) (rem : List Byte) (stage : WriteStage), s.Inv → s.cur = some (.write n rem stage) →
    exec (.write n) s = .next t →
    (t.primLog = s.primLog ∧ t.off = s.off) ∨
      (t.cur = none ∧ ∃ calls, t.primLog = s.primLog ++ calls ∧ 1 ≤ calls.length ∧ calls.length ≤ s.cap / 16)) ∧
  (∀ (P : Primitive) (s : State) (n rounds : Nat) (rem : List Byte), s.Inv → s.phase = .opened → rem.length ≤ 4 →
    s.off.toNat + (s.fill - s.pad) + rem.length ≤ 2 ^ 64 - 1 →
    writeLoop P n (rounds + 2) rem s = writeLoop P n 2 rem s)

/-! ### FLUSH and CLOSE -/

/-- R211, R213 and the phase checks of R163 and R167: WRITE, FLUSH and CLOSE fail with `NOT_OPEN` in UNINIT and with
`STREAM_CLOSED` in CLOSED, WRITE and FLUSH with `INSTANCE_FAULTED` in FAULT, and change nothing else. -/
def Obligations.CommandsOutsideAnOpenInstanceFail : Prop :=
  ∀ s : State, s.cur = none →
    (s.phase = .uninit → (∀ n, 1 ≤ n → n ≤ 4 → exec (.write n) (s.accept (encode (.write n))) =
      .next { s with err := .notOpen }) ∧
      exec .flush (s.accept (encode .flush)) = .next { s with err := .notOpen } ∧
        exec .close (s.accept (encode .close)) = .next { s with err := .notOpen }) ∧
    (s.phase = .closed → (∀ n, 1 ≤ n → n ≤ 4 → exec (.write n) (s.accept (encode (.write n))) =
      .next { s with err := .streamClosed }) ∧
      exec .flush (s.accept (encode .flush)) = .next { s with err := .streamClosed } ∧
        exec .close (s.accept (encode .close)) = .next { s with err := .streamClosed }) ∧
    (s.phase = .fault → (∀ n, 1 ≤ n → n ≤ 4 → exec (.write n) (s.accept (encode (.write n))) =
      .next { s with err := .instanceFaulted }) ∧
      exec .flush (s.accept (encode .flush)) = .next { s with err := .instanceFaulted })

/-- R212: CLOSE in FAULT ends the instance without a flush and keeps the offset; the secrets and the buffer of a faulted
instance are clear already. -/
def Obligations.CloseInFaultReleases : Prop :=
  ∀ s : State, s.cur = none → s.phase = .fault →
    exec .close (s.accept (encode .close)) = .next { s with phase := .closed, err := .ok } ∧
    (s.Inv → s.key = [] ∧ s.biv = 0 ∧ s.bufIn = [])

/-- R168: a FLUSH with nothing staged and nothing in the output queue changes nothing but `ERR`; so it is once a FLUSH has
completed, and a second FLUSH right after it changes nothing at all. -/
def Obligations.FlushIsIdempotent : Prop :=
  (∀ s : State, s.cur = none → s.phase = .opened → s.fill = s.pad → s.outQ = [] →
    exec .flush (s.accept (encode .flush)) = .next { s with err := .ok }) ∧
  (∀ (s t : State) (st : DrainStage), s.Inv → s.cur = some (.flush st) → exec .flush s = .next t →
    t.cur = none → t.err = .ok →
    t.phase = .opened ∧ t.fill = t.pad ∧ t.outQ = [] ∧ exec .flush (t.accept (encode .flush)) = .next t)

/-- R209, R210, R215: a CLOSE with nothing staged and nothing in the output queue invokes nothing, clears the latched key,
base IV and buffer, and keeps the offset, the fill and the capacity. -/
def Obligations.CloseWithNothingStaged : Prop :=
  ∀ s : State, s.cur = none → s.phase = .opened → s.fill = s.pad → s.outQ = [] →
    exec .close (s.accept (encode .close)) = .next { s with phase := .closed, key := [], biv := 0, bufIn := [], err := .ok }

/-- R155 to R161, R167, R209, R235: FLUSH and CLOSE with data staged and the output queue empty, just accepted or held in
their PROC stage, invoke the primitive once for each block in ascending order, emit the transform of the staged bytes,
advance the offset by their number and wait for the sink; at the first invocation that fails they enter FAULT with the
offset and the fill unchanged. -/
def Obligations.FlushAndCloseProcessStagedData : Prop :=
  ∀ s : State, s.Inv → s.phase = .opened → s.pad < s.fill → s.outQ = [] →
    let P := Config.primitive
    let blocks := (List.range ((s.fill + 15) / 16)).map fun j => counterBlock s.biv (s.off.toNat / 16 + j)
    let result (record : Pending) : State :=
      if callsSucceed P s.primLog.length blocks.length then
        { s with
          outQ := streamXor P s.key s.biv s.off.toNat s.staged
          off := s.off + BitVec.ofNat 64 (s.fill - s.pad), fill := (s.off.toNat + (s.fill - s.pad)) % 16
          primLog := s.primLog ++ blocks, cur := some record }
      else
        { s with
          phase := .fault, key := [], biv := 0, bufIn := [], err := .primitiveFailure, cur := none
          primLog := s.primLog ++ blocks.take (callsMade P s.primLog.length blocks.length) }
    (s.cur = none →
      exec .flush (s.accept (encode .flush)) = .next (result (.flush .drain)) ∧
      exec .close (s.accept (encode .close)) = .next (result (.close .drain))) ∧
    (s.cur = some (.flush .proc) → exec .flush s = .next (result (.flush .drain))) ∧
    (s.cur = some (.close .proc) → exec .close s = .next (result (.close .drain)))

/-- R154, R167, R209, R286: with output still in the queue FLUSH and CLOSE change nothing but their record: they wait
before they process, or, with nothing staged, for delivery. -/
def Obligations.FlushAndCloseWaitForTheSink : Prop :=
  ∀ s : State, s.cur = none → s.phase = .opened → s.outQ ≠ [] →
    (s.pad < s.fill →
      exec .flush (s.accept (encode .flush)) = .next { s with cur := some (.flush .proc) } ∧
      exec .close (s.accept (encode .close)) = .next { s with cur := some (.close .proc) }) ∧
    (s.fill ≤ s.pad →
      exec .flush (s.accept (encode .flush)) = .next { s with cur := some (.flush .drain) } ∧
      exec .close (s.accept (encode .close)) = .next { s with cur := some (.close .drain) })

/-- R167, R169, R209: a FLUSH or CLOSE in its DRAIN stage completes at the engine's step after the sink has taken the
queued bytes, which are then all in the sink's log, in order. -/
def Obligations.DrainCompletesOnceTheSinkHasTaken : Prop :=
  ∀ (s : State) (rest : List Agent),
    s.sched = List.replicate s.outQ.length .sink ++ .engine :: rest →
    (s.cur = some (.flush .drain) →
      run (s.outQ.length + 1) s = .next
        { s with sched := rest, outQ := [], sinkLog := s.sinkLog ++ s.outQ, err := .ok, cur := none }) ∧
    (s.cur = some (.close .drain) →
      run (s.outQ.length + 1) s = .next
        { s with
          sched := rest, outQ := [], sinkLog := s.sinkLog ++ s.outQ, err := .ok, cur := none
          phase := .closed, key := [], biv := 0, bufIn := [] })

/-! ### Steps -/

/-- R23, R150: the step that runs a command. At a state whose next command is the word `w`, the step is `exec` of the
command `w` decodes to, on the state with `w` accepted. At any state where the engine moves, a pending command that does
not hold runs. -/
def Obligations.StepRunsTheDecodedCommand : Prop :=
  (∀ (s : State) (w : Word) (i : Instr), decode w = .ok i →
    step (s.withFetchWord 32 w.toNat) = exec i (s.accept w)) ∧
  (∀ (s : State) (p : Pending) (i : Instr), s.nextAgent = .engine → s.cur = some p → p.instr = some i →
    s.hold = false → step s = exec i s.popAgent)

/-- R23, R150, R281: running a command at a state where none is pending is accepting it there and running it from the
record that the acceptance creates (log 6). -/
def Obligations.AcceptanceThenEngineStep : Prop :=
  ∀ (s : State) (i : Instr), s.cur = none → i.wellFormed = true →
    s.accept (encode i) = { s with cur := some (s.sample i) } ∧ exec i s = exec i (s.accept (encode i))

/-- R23: a `CMD` write is accepted when no command is pending: `BUSY` becomes 1, the record holds the decoded command
with its operands, and nothing else changes but the host's queue. -/
def Obligations.CmdWriteIsAccepted : Prop :=
  ∀ (s : State) (v : Word), s.nextHostOp = .access (.write 0x04 32 v) → s.cur = none →
    hostStep s = .next ({ s with cur := some (s.sampleWord v) }.popHost) ∧
    (∀ i, decode v = .ok i → s.sampleWord v = s.sample i) ∧ (s.accept v).busy = true

/-- R280: a `CMD` write while a command is pending is not accepted: the host's step changes nothing and the write stays the
host's next operation. Once no command is pending it is accepted as if issued then. A write to any other register is
accepted at any time. -/
def Obligations.CmdWriteStallsWhileBusy : Prop :=
  ∀ (s : State) (v : Word),
    (s.nextHostOp = .access (.write 0x04 32 v) →
      (s.cur ≠ none → hostStep s = .next s) ∧ (s.cur = none → hostStep s = .next (s.accept v).popHost)) ∧
    (∀ o : BitVec 8, o.toNat % 4 = 0 → o ≠ 0x04 → s.nextHostOp = .access (.write o 32 v) →
      hostStep s = .next (busWrite s o v).popHost)

/-- R281: a register write after acceptance does not change the pending command: the engine's step does the same before
and after the write. The exception in form, none in effect: a write to a `KEY` or `IV` register while an INIT is pending
leaves no trace at all, since INIT runs from its record and clears these registers (R203, R204, R208). -/
def Obligations.OperandWritesDoNotReachThePendingCommand : Prop :=
  ∀ (s : State) (p : Pending) (r : Reg) (v : Word), s.cur = some p →
    ((∀ kl ivb key32 iv16 ioff bufreq, p ≠ .init kl ivb key32 iv16 ioff bufreq) ∨ r.access ≠ .wo →
      engineStep (r.write s v) = mapNext (fun t => r.write t v) (engineStep s)) ∧
    (∀ kl ivb key32 iv16 ioff bufreq, p = .init kl ivb key32 iv16 ioff bufreq → r.access = .wo →
      engineStep (r.write s v) = engineStep s)

/-- R28, R150, R286: in a reachable state `HOLD` is 1 exactly when running the pending command changes nothing. -/
def Obligations.HoldMeansTheCommandWaits : Prop :=
  ∀ (s : State) (p : Pending) (i : Instr), s.Inv → s.cur = some p → p.instr = some i →
    (s.hold = true ↔ exec i s = .next s)

/-- R169, R84: the sink takes the front byte and records it; it has no step while the queue is empty. -/
def Obligations.SinkTakesTheFrontByte : Prop :=
  ∀ s : State,
    (∀ b q, s.outQ = b :: q → sinkStep s = { s with outQ := q, sinkLog := s.sinkLog ++ [b] }) ∧
    (s.outQ = [] → sinkStep s = s)

/-- R270 to R272: the reset input at any moment leaves the block's state as after reset and the sink's log as it was;
every readable register then reads 0 but `ID`. -/
def Obligations.ResetClearsTheBlock : Prop :=
  ∀ s : State, s.nextAgent = .reset →
    ∃ t, step s = .next t ∧ t.sinkLog = s.sinkLog ∧ t.primLog = s.primLog ∧ t.hostQ = s.hostQ ∧
      t = { State.reset with
        sinkLog := t.sinkLog, primLog := t.primLog, rdata := t.rdata, hostQ := t.hostQ, hostSeq := t.hostSeq
        sched := t.sched, tick := t.tick } ∧
      ∀ o : BitVec 8, busRead t o = if o = 0 then 0x4B435452 else 0

/-! ### The register window -/

/-- R20, R72: what a read returns after a write to a register of each access type, through the window; and, of the whole
state, a write changes the one register it names and nothing else. (A write to `CMD` stores nothing: R23.) -/
def Obligations.RegisterAccessTypes : Prop :=
  ∀ (s : State) (r r' : Reg) (v : Word),
    regAt r.offset = some r ∧
    (r.access = .wo → busRead s r.offset = 0) ∧
    (r.access = .rw → busRead (busWrite s r.offset v) r.offset = v) ∧
    (r' ≠ r → busRead (busWrite s r.offset v) r'.offset = busRead s r'.offset) ∧
    (r.access = .ro → busWrite s r.offset v = s) ∧
    (r = .cmd → busWrite s r.offset v = s) ∧
    (r = .din → busWrite s r.offset v = { s with din := v }) ∧
    (r = .ioffLo → busWrite s r.offset v = { s with ioffLo := v }) ∧
    (r = .ioffHi → busWrite s r.offset v = { s with ioffHi := v }) ∧
    (r = .bufreq → busWrite s r.offset v = { s with bufreq := v }) ∧
    (∀ i, r = .key i → busWrite s r.offset v = { s with keyReg := s.keyReg.set i v }) ∧
    (∀ i, r = .iv i → busWrite s r.offset v = { s with ivReg := s.ivReg.set i v }) ∧
    (∀ i, r = .tiv i → busWrite s r.offset v = { s with tiv := s.tiv.set i v }) ∧
    (r = .tcntLo → busWrite s r.offset v = { s with tcntLo := v }) ∧
    (r = .tcntHi → busWrite s r.offset v = { s with tcntHi := v })

/-- R41: reserved offsets read 0 and ignore writes; reserved fields read 0. -/
def Obligations.ReservedSpaceReadsZero : Prop :=
  ∀ (s : State) (v : Word),
    (∀ o : BitVec 8, (o = 0x3C ∨ o = 0x88 ∨ o = 0x8C ∨ (0xA0 ≤ o.toNat ∧ o.toNat % 4 = 0)) →
      regAt o = none ∧ busRead s o = 0 ∧ busWrite s o v = s) ∧
    (busRead s 0x08).extractLsb 7 6 = 0 ∧ (busRead s 0x08).extractLsb 31 12 = 0 ∧
    (busRead s 0x10).extractLsb 31 17 = 0 ∧ (busRead s 0x14).extractLsb 31 17 = 0 ∧
    (busRead s 0x1C).extractLsb 31 17 = 0 ∧ (busRead s 0x18).extractLsb 31 4 = 0

/-- R22: `ID` always reads the constant, whatever the state, and ignores writes. -/
def Obligations.IdIsConstant : Prop :=
  ∀ (s : State) (v : Word), busRead s 0x00 = 0x4B435452 ∧ busWrite s 0x00 v = s

/-- R24 to R29, R231: the fields of `STATUS`, with the numbers of the phases and of the error codes. -/
def Obligations.StatusFields : Prop :=
  ∀ s : State,
    (busRead s 0x08).extractLsb 1 0 =
      (match s.phase with | .uninit => 0 | .opened => 1 | .closed => 2 | .fault => 3) ∧
    (busRead s 0x08).extractLsb 3 2 =
      (if s.phase ≠ .opened then 0 else if 0 < s.outQ.length then 2 else if s.pad < s.fill then 1 else 0) ∧
    ((busRead s 0x08).getLsbD 4 = true ↔ s.cur ≠ none) ∧
    (busRead s 0x08).getLsbD 5 = s.hold ∧
    (busRead s 0x08).extractLsb 11 8 =
      (match s.err with
       | .ok => 0
       | .invalidKeyMaterial => 1
       | .streamClosed => 2
       | .primitiveFailure => 3
       | .illegalCommand => 4
       | .notOpen => 5
       | .instanceFaulted => 6
       | .invalidBufferSize => 7
       | .offsetLimit => 8
       | .illegalState => 9)

/-- R32, R33: the offset, counter and padding registers are read-only views of the stream offset, in every phase; they
read 0 after reset. -/
def Obligations.OffsetViews : Prop :=
  (∀ s : State,
    busRead s 0x20 = s.off.extractLsb 31 0 ∧ busRead s 0x24 = s.off.extractLsb 63 32 ∧
    (busRead s 0x2C ++ busRead s 0x28).toNat = s.off.toNat / 16 ∧ s.off.toNat / 16 < 2 ^ 60 ∧
    (busRead s 0x2C).extractLsb 31 28 = 0 ∧ (busRead s 0x18).toNat = s.off.toNat % 16) ∧
  (∀ o ∈ ([0x18, 0x20, 0x24, 0x28, 0x2C] : List (BitVec 8)),
    busRead State.reset o = 0 ∧ ∀ (s : State) (v : Word), busWrite s o v = s)

/-- R31: in a reachable state the count registers read the capacity, the fill and the length of the output queue in bits
16:0 and 0 above; they are read-only and read 0 after reset. -/
def Obligations.CountRegisters : Prop :=
  (∀ s : State, s.Inv →
    (busRead s 0x10).toNat = s.cap ∧ (busRead s 0x14).toNat = s.fill ∧ (busRead s 0x1C).toNat = s.outQ.length ∧
    s.cap < 2 ^ 17 ∧ s.fill < 2 ^ 17 ∧ s.outQ.length < 2 ^ 17) ∧
  (∀ o ∈ ([0x10, 0x14, 0x1C] : List (BitVec 8)),
    busRead State.reset o = 0 ∧ ∀ (s : State) (v : Word), (busRead s o).extractLsb 31 17 = 0 ∧ busWrite s o v = s)

/-- R71 to R73: a read gives the register's value to the host and changes nothing of the block; an access that is not 32
bits or not at a multiple of 4 is refused by name. -/
def Obligations.HostReadsAndNonTransactions : Prop :=
  ∀ (s : State) (o : BitVec 8) (bits : Nat),
    (s.nextHostOp = .access (.read o bits) →
      (bits = 32 ∧ o.toNat % 4 = 0 → hostStep s = .next ({ s with rdata := busRead s o }.popHost)) ∧
      (¬ (bits = 32 ∧ o.toNat % 4 = 0) → hostStep s = .refused (.notATransaction o bits))) ∧
    (∀ v, s.nextHostOp = .access (.write o bits v) → ¬ (bits = 32 ∧ o.toNat % 4 = 0) →
      hostStep s = .refused (.notATransaction o bits))

/-! ### Rules of the whole machine -/

/-- The state after reset has the invariant. -/
def Obligations.ResetStateHasTheInvariant : Prop := State.reset.Inv

/-- R53: every step from a state with the invariant gives a state with the invariant. -/
def Obligations.StepKeepsTheInvariant : Prop :=
  ∀ s t : State, s.Inv → step s = .next t → t.Inv

/-- R90: from a state with the invariant no step accesses an index of the buffer that does not exist, and a process
finds every index it reads in the storage. -/
def Obligations.NoAccessOutOfBounds : Prop :=
  ∀ (s : State) (f : Fault), s.Inv → step s ≠ .fault f

/-- R53: the six invariants, in every state that a run from reset reaches, whatever accesses and whatever order of the
agents' steps are placed. -/
def Obligations.ReachableStatesSatisfyTheInvariants : Prop :=
  ∀ (ops : List HostOp) (agents : List Agent) (k : Nat) (t : State),
    run k { State.reset with hostQ := ops, sched := agents } = .next t →
    (t.phase ≠ .uninit → t.pad ≤ t.fill ∧ t.fill ≤ t.cap) ∧
    (t.phase = .opened → t.cur = none → t.fill < t.cap) ∧
    t.outQ.length ≤ t.cap ∧
    (t.phase ≠ .opened → t.cur = none → t.outQ = []) ∧
    (t.phase = .opened → t.key.length ∈ [16, 24, 32]) ∧
    (t.phase ≠ .opened → t.key = []) ∧
    t.off.toNat + (t.fill - t.pad) ≤ 2 ^ 64 - 1

/-- R25: only INIT, CLOSE, FAULT entry and reset change the phase. -/
def Obligations.OnlyTheseChangeThePhase : Prop :=
  ∀ s t : State, step s = .next t → t.phase ≠ s.phase →
    (s.nextAgent = .reset ∧ t.phase = .uninit) ∨
    (s.nextAgent = .engine ∧
      ((∃ k v key iv o b, s.cur = some (.init k v key iv o b) ∧ t.phase = .opened) ∨
       (∃ st, s.cur = some (.close st) ∧ t.phase = .closed) ∨
       (((∃ n rem st, s.cur = some (.write n rem st)) ∨ (∃ st, s.cur = some (.flush st)) ∨
          (∃ st, s.cur = some (.close st))) ∧ t.phase = .fault ∧ t.err = .primitiveFailure)))

/-- R46, R47, R48: while an instance stays open no step changes its key, its base IV or its capacity. -/
def Obligations.OpenInstanceKeepsItsKey : Prop :=
  ∀ s t : State, step s = .next t → s.phase = .opened → t.phase = .opened →
    t.key = s.key ∧ t.biv = s.biv ∧ t.cap = s.cap

/-- R49: no step but the reset input decreases the stream offset of an open instance, and no CLOSE or FAULT entry
changes it by more than the bytes it emits. -/
def Obligations.OffsetNeverDecreases : Prop :=
  ∀ s t : State, s.Inv → step s = .next t → s.phase = .opened → s.nextAgent ≠ .reset →
    s.off.toNat ≤ t.off.toNat ∧ (t.phase = .fault → t.off = s.off) ∧
      t.off.toNat + s.outQ.length + s.sinkLog.length = s.off.toNat + t.outQ.length + t.sinkLog.length

/-- R29, R230: no step but the reset input changes `ERR` other than by completing the pending command. -/
def Obligations.ErrIsWrittenAtCompletion : Prop :=
  ∀ s t : State, step s = .next t → s.nextAgent ≠ .reset → t.err ≠ s.err → s.cur ≠ none ∧ t.cur = none

/-- R232: the codes each command can end with, by phase. -/
def Obligations.ErrorMatrix : Prop :=
  ∀ (s t : State) (p : Pending), s.Inv → s.cur = some p → engineStep s = .next t → t.cur = none →
    t.err ∈ allowedCodes p s.phase

/-- R241, R91: what the host can see does not depend on the key, the base IV or the bytes in the buffers. Two states that
agree in all else take steps that agree in all else, with the same value read by the host. -/
def Obligations.HostViewIsIndependentOfSecrets : Prop :=
  ∀ s t : State, s.sameView t →
    match step s, step t with
    | .next s', .next t' => s'.sameView t'
    | .fault f, .fault g => f = g
    | .refused q, .refused r => q = r
    | _, _ => False

/-! ### The output law -/

/-- R171: along every run of an open instance without FAULT and reset, the bytes the sink has and will receive are those
of the start followed by the transform of every data byte taken in, each at its stream position; the order of the agents'
steps, the sizes of the WRITE commands, the FLUSH points and the capacity do not enter. -/
def Obligations.OutputLaw : Prop :=
  ∀ (k : Nat) (s t : State), s.Inv → s.phase = .opened → openRun k s = true → run k s = .next t → t.phase ≠ .fault →
    t.eventual Config.primitive =
      s.eventual Config.primitive ++
        streamXor Config.primitive s.key s.biv (s.off.toNat + s.waiting.length) (acceptedData k s)

/-- R171, from an instance with nothing staged and nothing queued: at every point, without FAULT and reset, the bytes the
sink has received since then, followed by `out_q`, are the transform of the first `st.off - o0` data bytes taken in, and
the block holds the rest of them. -/
def Obligations.OutputLawFromAnEmptyBuffer : Prop :=
  ∀ (k : Nat) (s t : State), s.Inv → s.phase = .opened → s.waiting = [] → s.outQ = [] → openRun k s = true →
    run k s = .next t → t.phase ≠ .fault →
    let n := t.off.toNat - s.off.toNat
    s.off.toNat ≤ t.off.toNat ∧ n ≤ (acceptedData k s).length ∧
    t.sinkLog ++ t.outQ =
      s.sinkLog ++ streamXor Config.primitive s.key s.biv s.off.toNat ((acceptedData k s).take n) ∧
    t.waiting = (acceptedData k s).drop n

/-- R171, R167, R209: after a FLUSH or CLOSE has completed, the sink has received everything: what it will have received
is what it has. -/
def Obligations.CompletedFlushHasDeliveredEverything : Prop :=
  ∀ s t : State, s.Inv → s.phase = .opened → s.nextAgent = .engine →
    (∃ st, s.cur = some (.flush st) ∨ s.cur = some (.close st)) → step s = .next t → t.cur = none → t.err = .ok →
    t.outQ = [] ∧ t.staged = [] ∧ t.eventual Config.primitive = t.sinkLog

/-- R173: two instances with the same key, base IV and initial offset that take in the same data bytes give the sink the
same bytes when they are closed, whatever the sizes of the WRITE commands, the FLUSH points, the capacities and the order
of the agents' steps. -/
def Obligations.ChunkInvariance : Prop :=
  ∀ (k₁ k₂ : Nat) (s₁ s₂ t₁ t₂ : State),
    s₁.Inv → s₂.Inv → s₁.phase = .opened → s₂.phase = .opened →
    s₁.waiting = [] → s₂.waiting = [] → s₁.outQ = [] → s₂.outQ = [] → s₁.sinkLog = [] → s₂.sinkLog = [] →
    s₁.key = s₂.key → s₁.biv = s₂.biv → s₁.off = s₂.off →
    openRun k₁ s₁ = true → openRun k₂ s₂ = true → run k₁ s₁ = .next t₁ → run k₂ s₂ = .next t₂ →
    t₁.phase = .closed → t₂.phase = .closed → acceptedData k₁ s₁ = acceptedData k₂ s₂ →
    t₁.sinkLog = t₂.sinkLog

/-- R172: transforming twice with the same key, base IV and position gives the data back. -/
def Obligations.TransformTwiceIsIdentity : Prop :=
  ∀ (P : Primitive) (key : List Byte) (biv : Block) (pos : Nat) (data : List Byte),
    streamXor P key biv pos (streamXor P key biv pos data) = data

/-- R174, R175: the transform of a data stream from position `k` on is what an instance started at that position gives;
its length is the data's, and each byte depends on the data byte at its place only. -/
def Obligations.TransformResumesAtAnyOffset : Prop :=
  ∀ (P : Primitive) (key : List Byte) (biv : Block) (pos k : Nat) (data : List Byte),
    (streamXor P key biv pos data).drop k = streamXor P key biv (pos + k) (data.drop k) ∧
    (streamXor P key biv pos data).length = data.length ∧
    (∀ data', data'.length = data.length → data'[k]? = data[k]? →
      (streamXor P key biv pos data')[k]? = (streamXor P key biv pos data)[k]?)
end

