-- ==== Sys2Proof/Laws/Memory.lean ====
section
/-!
SUPPORT. The storage of `buf_in`: reading after a write, and the canonical form that every memory operation keeps.
-/

namespace Sys2Proof.Machine

@[simp] theorem Memory.read_nil (i : Nat) : Memory.read [] i = Memory.unlisted := rfl

@[simp] theorem Memory.wf_nil : Memory.wf [] = true := rfl

theorem Memory.wfFrom_cons {lo a : Nat} {x : Byte} {m : Memory} :
    Memory.wfFrom lo ((a, x) :: m) = true ↔
      lo ≤ a ∧ a < Config.bufMax ∧ x ≠ Memory.unlisted ∧ Memory.wfFrom (a + 1) m = true := by
  simp [Memory.wfFrom, and_assoc]

/-- A well-formed tail stays well formed from any lower bound. -/
theorem Memory.wfFrom_mono {lo lo' : Nat} (h : lo' ≤ lo) {m : Memory} (hm : Memory.wfFrom lo m = true) :
    Memory.wfFrom lo' m = true := by
  cases m with
  | nil => rfl
  | cons c m =>
    obtain ⟨a, x⟩ := c
    rw [Memory.wfFrom_cons] at *
    exact ⟨by omega, hm.2⟩

/-- Below its lower bound a well-formed storage lists nothing. -/
theorem Memory.read_below {lo : Nat} {m : Memory} (hm : Memory.wfFrom lo m = true) {i : Nat} (hi : i < lo) :
    Memory.read m i = Memory.unlisted := by
  induction m generalizing lo with
  | nil => rfl
  | cons c m ih =>
    obtain ⟨a, x⟩ := c
    rw [Memory.wfFrom_cons] at hm
    rw [Memory.read, if_neg (by omega)]
    exact ih hm.2.2.2 (by omega)

/-- A write in range keeps the canonical form. -/
theorem Memory.wfFrom_write {lo i : Nat} {b : Byte} {m : Memory} (hm : Memory.wfFrom lo m = true) (hlo : lo ≤ i)
    (hi : i < Config.bufMax) : Memory.wfFrom lo (Memory.write m i b) = true := by
  induction m generalizing lo with
  | nil => rw [Memory.write]; split <;> simp_all [Memory.wfFrom]
  | cons c m ih =>
    obtain ⟨a, x⟩ := c
    rw [Memory.wfFrom_cons] at hm
    obtain ⟨h1, h2, h3, h4⟩ := hm
    rw [Memory.write]
    split
    · split
      · exact Memory.wfFrom_cons.mpr ⟨h1, h2, h3, h4⟩
      · exact Memory.wfFrom_cons.mpr ⟨hlo, hi, ‹_›, Memory.wfFrom_cons.mpr ⟨by omega, h2, h3, h4⟩⟩
    · split
      · split
        · exact Memory.wfFrom_mono (by omega) h4
        · exact Memory.wfFrom_cons.mpr ⟨h1, h2, ‹_›, h4⟩
      · exact Memory.wfFrom_cons.mpr ⟨h1, h2, h3, ih h4 (by omega)⟩

theorem Memory.wf_write {i : Nat} {b : Byte} {m : Memory} (hm : m.wf = true) (hi : i < Config.bufMax) :
    (m.write i b).wf = true :=
  Memory.wfFrom_write hm (Nat.zero_le i) hi

/-- Reading after a write: the written byte at its index, every other index as before. -/
theorem Memory.read_write_from {lo : Nat} {m : Memory} (hm : Memory.wfFrom lo m = true) (i j : Nat) (b : Byte) :
    Memory.read (Memory.write m i b) j = if j = i then b else Memory.read m j := by
  induction m generalizing lo with
  | nil =>
    rw [Memory.write]
    split
    · split <;> simp_all
    · simp only [Memory.read]
      split <;> split <;> first | rfl | omega
  | cons c m ih =>
    obtain ⟨a, x⟩ := c
    rw [Memory.wfFrom_cons] at hm
    obtain ⟨-, -, -, h4⟩ := hm
    rw [Memory.write]
    split
    · split
      · split
        · rename_i _ h5 h6
          rw [h5, h6, Memory.read, if_neg (by omega), Memory.read_below h4 (by omega)]
        · rfl
      · rw [Memory.read]
        split <;> split <;> first | rfl | omega
    · split
      · split
        · rename_i _ h5 h6
          rw [Memory.read]
          split
          · rename_i h7; rw [h7, h5, h6, Memory.read_below h4 (by omega)]
          · split
            · omega
            · rfl
        · rw [Memory.read, Memory.read]
          split
          · rw [if_pos (by omega)]
          · rw [if_neg (by omega)]
      · rw [Memory.read, Memory.read, ih h4]
        split
        · rw [if_neg (by omega)]
        · rfl

theorem Memory.read_write {m : Memory} (hm : m.wf = true) (i j : Nat) (b : Byte) :
    (m.write i b).read j = if j = i then b else m.read j :=
  Memory.read_write_from hm i j b

@[simp] theorem Memory.length_readFrom (m : Memory) (i n : Nat) : (m.readFrom i n).length = n := by
  induction n generalizing i with
  | zero => rfl
  | succ n ih => simp [Memory.readFrom, ih]

theorem Memory.readFrom_append (m : Memory) (i n k : Nat) :
    m.readFrom i (n + k) = m.readFrom i n ++ m.readFrom (i + n) k := by
  induction n generalizing i with
  | zero => simp [Memory.readFrom]
  | succ n ih =>
    rw [Nat.succ_add, Memory.readFrom, Memory.readFrom, ih, List.cons_append, Nat.add_right_comm i 1 n, Nat.add_assoc]

/-- A range reads alike in two storages that agree on it. -/
theorem Memory.readFrom_congr {m m' : Memory} {i n : Nat} (h : ∀ j, i ≤ j → j < i + n → m.read j = m'.read j) :
    m.readFrom i n = m'.readFrom i n := by
  induction n generalizing i with
  | zero => rfl
  | succ n ih =>
    rw [Memory.readFrom, Memory.readFrom, h i (Nat.le_refl i) (by omega), ih fun j h1 h2 => h j (by omega) (by omega)]

theorem Memory.readFrom_drop (m : Memory) (i n k : Nat) :
    (m.readFrom i n).drop k = m.readFrom (i + k) (n - k) := by
  induction k generalizing i n with
  | zero => rfl
  | succ k ih =>
    cases n with
    | zero => simp [Memory.readFrom]
    | succ n =>
      rw [Memory.readFrom, List.drop_succ_cons, ih]
      congr 1 <;> omega

end Sys2Proof.Machine
end

