-- ==== Sys2Proof/Laws/PerInstr.lean ====
section
/-!
SUPPORT. Statements for all commands, one lemma per constructor of Instr.
-/

namespace Sys2Proof.Laws

/-- The encoded word of a command matches the opcode-map row of its mnemonic (30_encoding.md R104). -/
def EncodedInItsRow.Statement (i : Instr) : Prop :=
  ∃ r ∈ opcodeRows, r.mnemonic = i.mnemonic ∧ r.matchesWord (encode i) = true

theorem EncodedInItsRow.nop : EncodedInItsRow.Statement .nop := by
  simp only [EncodedInItsRow.Statement]; decide

theorem EncodedInItsRow.init (kl : BitVec 2) (ivb : BitVec 5) : EncodedInItsRow.Statement (.init kl ivb) := by
  refine ⟨_, List.mem_cons_of_mem _ (List.mem_cons_self ..), rfl, ?_⟩
  revert kl ivb
  decide

/-- The two bits of `NM1` decide the word, whatever count they come from. -/
theorem EncodedInItsRow.write (n : Nat) : EncodedInItsRow.Statement (.write n) := by
  refine ⟨_, List.mem_cons_of_mem _ (List.mem_cons_of_mem _ (List.mem_cons_self ..)), rfl, ?_⟩
  simp only [encode]
  generalize BitVec.ofNat 2 (n - 1) = nm1
  revert nm1
  decide

theorem EncodedInItsRow.flush : EncodedInItsRow.Statement .flush := by
  simp only [EncodedInItsRow.Statement]; decide

theorem EncodedInItsRow.close : EncodedInItsRow.Statement .close := by
  simp only [EncodedInItsRow.Statement]; decide

theorem EncodedInItsRow.derive : EncodedInItsRow.Statement .derive := by
  simp only [EncodedInItsRow.Statement]; decide

end Sys2Proof.Laws
end

