-- ==== Sys2Proof/Laws/State.lean ====
section
/-!
SUPPORT. What each update of the state does to each field: one lemma per field per update, true by rfl.
-/

namespace Sys2Proof.Machine

/-! ### `s.finish c` -/

@[simp] theorem State.finish_phase (s : State) (c : ErrCode) : (s.finish c).phase = s.phase := rfl
@[simp] theorem State.finish_err (s : State) (c : ErrCode) : (s.finish c).err = c := rfl
@[simp] theorem State.finish_cur (s : State) (c : ErrCode) : (s.finish c).cur = none := rfl
@[simp] theorem State.finish_key (s : State) (c : ErrCode) : (s.finish c).key = s.key := rfl
@[simp] theorem State.finish_biv (s : State) (c : ErrCode) : (s.finish c).biv = s.biv := rfl
@[simp] theorem State.finish_cap (s : State) (c : ErrCode) : (s.finish c).cap = s.cap := rfl
@[simp] theorem State.finish_off (s : State) (c : ErrCode) : (s.finish c).off = s.off := rfl
@[simp] theorem State.finish_fill (s : State) (c : ErrCode) : (s.finish c).fill = s.fill := rfl
@[simp] theorem State.finish_bufIn (s : State) (c : ErrCode) : (s.finish c).bufIn = s.bufIn := rfl
@[simp] theorem State.finish_outQ (s : State) (c : ErrCode) : (s.finish c).outQ = s.outQ := rfl
@[simp] theorem State.finish_div (s : State) (c : ErrCode) : (s.finish c).div = s.div := rfl
@[simp] theorem State.finish_din (s : State) (c : ErrCode) : (s.finish c).din = s.din := rfl
@[simp] theorem State.finish_ioffLo (s : State) (c : ErrCode) : (s.finish c).ioffLo = s.ioffLo := rfl
@[simp] theorem State.finish_ioffHi (s : State) (c : ErrCode) : (s.finish c).ioffHi = s.ioffHi := rfl
@[simp] theorem State.finish_bufreq (s : State) (c : ErrCode) : (s.finish c).bufreq = s.bufreq := rfl
@[simp] theorem State.finish_keyReg (s : State) (c : ErrCode) : (s.finish c).keyReg = s.keyReg := rfl
@[simp] theorem State.finish_ivReg (s : State) (c : ErrCode) : (s.finish c).ivReg = s.ivReg := rfl
@[simp] theorem State.finish_tiv (s : State) (c : ErrCode) : (s.finish c).tiv = s.tiv := rfl
@[simp] theorem State.finish_tcntLo (s : State) (c : ErrCode) : (s.finish c).tcntLo = s.tcntLo := rfl
@[simp] theorem State.finish_tcntHi (s : State) (c : ErrCode) : (s.finish c).tcntHi = s.tcntHi := rfl
@[simp] theorem State.finish_sinkLog (s : State) (c : ErrCode) : (s.finish c).sinkLog = s.sinkLog := rfl
@[simp] theorem State.finish_primLog (s : State) (c : ErrCode) : (s.finish c).primLog = s.primLog := rfl
@[simp] theorem State.finish_rdata (s : State) (c : ErrCode) : (s.finish c).rdata = s.rdata := rfl
@[simp] theorem State.finish_hostQ (s : State) (c : ErrCode) : (s.finish c).hostQ = s.hostQ := rfl
@[simp] theorem State.finish_hostSeq (s : State) (c : ErrCode) : (s.finish c).hostSeq = s.hostSeq := rfl
@[simp] theorem State.finish_sched (s : State) (c : ErrCode) : (s.finish c).sched = s.sched := rfl
@[simp] theorem State.finish_tick (s : State) (c : ErrCode) : (s.finish c).tick = s.tick := rfl

/-! ### `s.fail c` -/

@[simp] theorem State.fail_phase (s : State) (c : ErrCode) : (s.fail c).phase = s.phase := rfl
@[simp] theorem State.fail_err (s : State) (c : ErrCode) : (s.fail c).err = c := rfl
@[simp] theorem State.fail_cur (s : State) (c : ErrCode) : (s.fail c).cur = none := rfl
@[simp] theorem State.fail_key (s : State) (c : ErrCode) : (s.fail c).key = s.key := rfl
@[simp] theorem State.fail_biv (s : State) (c : ErrCode) : (s.fail c).biv = s.biv := rfl
@[simp] theorem State.fail_cap (s : State) (c : ErrCode) : (s.fail c).cap = s.cap := rfl
@[simp] theorem State.fail_off (s : State) (c : ErrCode) : (s.fail c).off = s.off := rfl
@[simp] theorem State.fail_fill (s : State) (c : ErrCode) : (s.fail c).fill = s.fill := rfl
@[simp] theorem State.fail_bufIn (s : State) (c : ErrCode) : (s.fail c).bufIn = s.bufIn := rfl
@[simp] theorem State.fail_outQ (s : State) (c : ErrCode) : (s.fail c).outQ = s.outQ := rfl
@[simp] theorem State.fail_div (s : State) (c : ErrCode) : (s.fail c).div = s.div := rfl
@[simp] theorem State.fail_din (s : State) (c : ErrCode) : (s.fail c).din = s.din := rfl
@[simp] theorem State.fail_ioffLo (s : State) (c : ErrCode) : (s.fail c).ioffLo = s.ioffLo := rfl
@[simp] theorem State.fail_ioffHi (s : State) (c : ErrCode) : (s.fail c).ioffHi = s.ioffHi := rfl
@[simp] theorem State.fail_bufreq (s : State) (c : ErrCode) : (s.fail c).bufreq = s.bufreq := rfl
@[simp] theorem State.fail_keyReg (s : State) (c : ErrCode) : (s.fail c).keyReg = s.keyReg := rfl
@[simp] theorem State.fail_ivReg (s : State) (c : ErrCode) : (s.fail c).ivReg = s.ivReg := rfl
@[simp] theorem State.fail_tiv (s : State) (c : ErrCode) : (s.fail c).tiv = s.tiv := rfl
@[simp] theorem State.fail_tcntLo (s : State) (c : ErrCode) : (s.fail c).tcntLo = s.tcntLo := rfl
@[simp] theorem State.fail_tcntHi (s : State) (c : ErrCode) : (s.fail c).tcntHi = s.tcntHi := rfl
@[simp] theorem State.fail_sinkLog (s : State) (c : ErrCode) : (s.fail c).sinkLog = s.sinkLog := rfl
@[simp] theorem State.fail_primLog (s : State) (c : ErrCode) : (s.fail c).primLog = s.primLog := rfl
@[simp] theorem State.fail_rdata (s : State) (c : ErrCode) : (s.fail c).rdata = s.rdata := rfl
@[simp] theorem State.fail_hostQ (s : State) (c : ErrCode) : (s.fail c).hostQ = s.hostQ := rfl
@[simp] theorem State.fail_hostSeq (s : State) (c : ErrCode) : (s.fail c).hostSeq = s.hostSeq := rfl
@[simp] theorem State.fail_sched (s : State) (c : ErrCode) : (s.fail c).sched = s.sched := rfl
@[simp] theorem State.fail_tick (s : State) (c : ErrCode) : (s.fail c).tick = s.tick := rfl

/-! ### `s.succeed` -/

@[simp] theorem State.succeed_phase (s : State) : (s.succeed).phase = s.phase := rfl
@[simp] theorem State.succeed_err (s : State) : (s.succeed).err = .ok := rfl
@[simp] theorem State.succeed_cur (s : State) : (s.succeed).cur = none := rfl
@[simp] theorem State.succeed_key (s : State) : (s.succeed).key = s.key := rfl
@[simp] theorem State.succeed_biv (s : State) : (s.succeed).biv = s.biv := rfl
@[simp] theorem State.succeed_cap (s : State) : (s.succeed).cap = s.cap := rfl
@[simp] theorem State.succeed_off (s : State) : (s.succeed).off = s.off := rfl
@[simp] theorem State.succeed_fill (s : State) : (s.succeed).fill = s.fill := rfl
@[simp] theorem State.succeed_bufIn (s : State) : (s.succeed).bufIn = s.bufIn := rfl
@[simp] theorem State.succeed_outQ (s : State) : (s.succeed).outQ = s.outQ := rfl
@[simp] theorem State.succeed_div (s : State) : (s.succeed).div = s.div := rfl
@[simp] theorem State.succeed_din (s : State) : (s.succeed).din = s.din := rfl
@[simp] theorem State.succeed_ioffLo (s : State) : (s.succeed).ioffLo = s.ioffLo := rfl
@[simp] theorem State.succeed_ioffHi (s : State) : (s.succeed).ioffHi = s.ioffHi := rfl
@[simp] theorem State.succeed_bufreq (s : State) : (s.succeed).bufreq = s.bufreq := rfl
@[simp] theorem State.succeed_keyReg (s : State) : (s.succeed).keyReg = s.keyReg := rfl
@[simp] theorem State.succeed_ivReg (s : State) : (s.succeed).ivReg = s.ivReg := rfl
@[simp] theorem State.succeed_tiv (s : State) : (s.succeed).tiv = s.tiv := rfl
@[simp] theorem State.succeed_tcntLo (s : State) : (s.succeed).tcntLo = s.tcntLo := rfl
@[simp] theorem State.succeed_tcntHi (s : State) : (s.succeed).tcntHi = s.tcntHi := rfl
@[simp] theorem State.succeed_sinkLog (s : State) : (s.succeed).sinkLog = s.sinkLog := rfl
@[simp] theorem State.succeed_primLog (s : State) : (s.succeed).primLog = s.primLog := rfl
@[simp] theorem State.succeed_rdata (s : State) : (s.succeed).rdata = s.rdata := rfl
@[simp] theorem State.succeed_hostQ (s : State) : (s.succeed).hostQ = s.hostQ := rfl
@[simp] theorem State.succeed_hostSeq (s : State) : (s.succeed).hostSeq = s.hostSeq := rfl
@[simp] theorem State.succeed_sched (s : State) : (s.succeed).sched = s.sched := rfl
@[simp] theorem State.succeed_tick (s : State) : (s.succeed).tick = s.tick := rfl

/-! ### `s.release` -/

@[simp] theorem State.release_phase (s : State) : (s.release).phase = s.phase := rfl
@[simp] theorem State.release_err (s : State) : (s.release).err = s.err := rfl
@[simp] theorem State.release_cur (s : State) : (s.release).cur = s.cur := rfl
@[simp] theorem State.release_key (s : State) : (s.release).key = [] := rfl
@[simp] theorem State.release_biv (s : State) : (s.release).biv = 0 := rfl
@[simp] theorem State.release_cap (s : State) : (s.release).cap = s.cap := rfl
@[simp] theorem State.release_off (s : State) : (s.release).off = s.off := rfl
@[simp] theorem State.release_fill (s : State) : (s.release).fill = s.fill := rfl
@[simp] theorem State.release_bufIn (s : State) : (s.release).bufIn = [] := rfl
@[simp] theorem State.release_outQ (s : State) : (s.release).outQ = s.outQ := rfl
@[simp] theorem State.release_div (s : State) : (s.release).div = s.div := rfl
@[simp] theorem State.release_din (s : State) : (s.release).din = s.din := rfl
@[simp] theorem State.release_ioffLo (s : State) : (s.release).ioffLo = s.ioffLo := rfl
@[simp] theorem State.release_ioffHi (s : State) : (s.release).ioffHi = s.ioffHi := rfl
@[simp] theorem State.release_bufreq (s : State) : (s.release).bufreq = s.bufreq := rfl
@[simp] theorem State.release_keyReg (s : State) : (s.release).keyReg = s.keyReg := rfl
@[simp] theorem State.release_ivReg (s : State) : (s.release).ivReg = s.ivReg := rfl
@[simp] theorem State.release_tiv (s : State) : (s.release).tiv = s.tiv := rfl
@[simp] theorem State.release_tcntLo (s : State) : (s.release).tcntLo = s.tcntLo := rfl
@[simp] theorem State.release_tcntHi (s : State) : (s.release).tcntHi = s.tcntHi := rfl
@[simp] theorem State.release_sinkLog (s : State) : (s.release).sinkLog = s.sinkLog := rfl
@[simp] theorem State.release_primLog (s : State) : (s.release).primLog = s.primLog := rfl
@[simp] theorem State.release_rdata (s : State) : (s.release).rdata = s.rdata := rfl
@[simp] theorem State.release_hostQ (s : State) : (s.release).hostQ = s.hostQ := rfl
@[simp] theorem State.release_hostSeq (s : State) : (s.release).hostSeq = s.hostSeq := rfl
@[simp] theorem State.release_sched (s : State) : (s.release).sched = s.sched := rfl
@[simp] theorem State.release_tick (s : State) : (s.release).tick = s.tick := rfl

/-! ### `s.enterFault` -/

@[simp] theorem State.enterFault_phase (s : State) : (s.enterFault).phase = .fault := rfl
@[simp] theorem State.enterFault_err (s : State) : (s.enterFault).err = .primitiveFailure := rfl
@[simp] theorem State.enterFault_cur (s : State) : (s.enterFault).cur = none := rfl
@[simp] theorem State.enterFault_key (s : State) : (s.enterFault).key = [] := rfl
@[simp] theorem State.enterFault_biv (s : State) : (s.enterFault).biv = 0 := rfl
@[simp] theorem State.enterFault_cap (s : State) : (s.enterFault).cap = s.cap := rfl
@[simp] theorem State.enterFault_off (s : State) : (s.enterFault).off = s.off := rfl
@[simp] theorem State.enterFault_fill (s : State) : (s.enterFault).fill = s.fill := rfl
@[simp] theorem State.enterFault_bufIn (s : State) : (s.enterFault).bufIn = [] := rfl
@[simp] theorem State.enterFault_outQ (s : State) : (s.enterFault).outQ = s.outQ := rfl
@[simp] theorem State.enterFault_div (s : State) : (s.enterFault).div = s.div := rfl
@[simp] theorem State.enterFault_din (s : State) : (s.enterFault).din = s.din := rfl
@[simp] theorem State.enterFault_ioffLo (s : State) : (s.enterFault).ioffLo = s.ioffLo := rfl
@[simp] theorem State.enterFault_ioffHi (s : State) : (s.enterFault).ioffHi = s.ioffHi := rfl
@[simp] theorem State.enterFault_bufreq (s : State) : (s.enterFault).bufreq = s.bufreq := rfl
@[simp] theorem State.enterFault_keyReg (s : State) : (s.enterFault).keyReg = s.keyReg := rfl
@[simp] theorem State.enterFault_ivReg (s : State) : (s.enterFault).ivReg = s.ivReg := rfl
@[simp] theorem State.enterFault_tiv (s : State) : (s.enterFault).tiv = s.tiv := rfl
@[simp] theorem State.enterFault_tcntLo (s : State) : (s.enterFault).tcntLo = s.tcntLo := rfl
@[simp] theorem State.enterFault_tcntHi (s : State) : (s.enterFault).tcntHi = s.tcntHi := rfl
@[simp] theorem State.enterFault_sinkLog (s : State) : (s.enterFault).sinkLog = s.sinkLog := rfl
@[simp] theorem State.enterFault_primLog (s : State) : (s.enterFault).primLog = s.primLog := rfl
@[simp] theorem State.enterFault_rdata (s : State) : (s.enterFault).rdata = s.rdata := rfl
@[simp] theorem State.enterFault_hostQ (s : State) : (s.enterFault).hostQ = s.hostQ := rfl
@[simp] theorem State.enterFault_hostSeq (s : State) : (s.enterFault).hostSeq = s.hostSeq := rfl
@[simp] theorem State.enterFault_sched (s : State) : (s.enterFault).sched = s.sched := rfl
@[simp] theorem State.enterFault_tick (s : State) : (s.enterFault).tick = s.tick := rfl

/-! ### `s.reinit` -/

@[simp] theorem State.reinit_phase (s : State) : (s.reinit).phase = s.phase := rfl
@[simp] theorem State.reinit_err (s : State) : (s.reinit).err = s.err := rfl
@[simp] theorem State.reinit_cur (s : State) : (s.reinit).cur = s.cur := rfl
@[simp] theorem State.reinit_key (s : State) : (s.reinit).key = s.key := rfl
@[simp] theorem State.reinit_biv (s : State) : (s.reinit).biv = s.biv := rfl
@[simp] theorem State.reinit_cap (s : State) : (s.reinit).cap = s.cap := rfl
@[simp] theorem State.reinit_off (s : State) : (s.reinit).off = s.off := rfl
@[simp] theorem State.reinit_fill (s : State) : (s.reinit).fill = s.pad := rfl
@[simp] theorem State.reinit_bufIn (s : State) : (s.reinit).bufIn = s.bufIn := rfl
@[simp] theorem State.reinit_outQ (s : State) : (s.reinit).outQ = s.outQ := rfl
@[simp] theorem State.reinit_div (s : State) : (s.reinit).div = s.div := rfl
@[simp] theorem State.reinit_din (s : State) : (s.reinit).din = s.din := rfl
@[simp] theorem State.reinit_ioffLo (s : State) : (s.reinit).ioffLo = s.ioffLo := rfl
@[simp] theorem State.reinit_ioffHi (s : State) : (s.reinit).ioffHi = s.ioffHi := rfl
@[simp] theorem State.reinit_bufreq (s : State) : (s.reinit).bufreq = s.bufreq := rfl
@[simp] theorem State.reinit_keyReg (s : State) : (s.reinit).keyReg = s.keyReg := rfl
@[simp] theorem State.reinit_ivReg (s : State) : (s.reinit).ivReg = s.ivReg := rfl
@[simp] theorem State.reinit_tiv (s : State) : (s.reinit).tiv = s.tiv := rfl
@[simp] theorem State.reinit_tcntLo (s : State) : (s.reinit).tcntLo = s.tcntLo := rfl
@[simp] theorem State.reinit_tcntHi (s : State) : (s.reinit).tcntHi = s.tcntHi := rfl
@[simp] theorem State.reinit_sinkLog (s : State) : (s.reinit).sinkLog = s.sinkLog := rfl
@[simp] theorem State.reinit_primLog (s : State) : (s.reinit).primLog = s.primLog := rfl
@[simp] theorem State.reinit_rdata (s : State) : (s.reinit).rdata = s.rdata := rfl
@[simp] theorem State.reinit_hostQ (s : State) : (s.reinit).hostQ = s.hostQ := rfl
@[simp] theorem State.reinit_hostSeq (s : State) : (s.reinit).hostSeq = s.hostSeq := rfl
@[simp] theorem State.reinit_sched (s : State) : (s.reinit).sched = s.sched := rfl
@[simp] theorem State.reinit_tick (s : State) : (s.reinit).tick = s.tick := rfl

/-! ### `s.emit bytes` -/

@[simp] theorem State.emit_phase (s : State) (bytes : List Byte) : (s.emit bytes).phase = s.phase := rfl
@[simp] theorem State.emit_err (s : State) (bytes : List Byte) : (s.emit bytes).err = s.err := rfl
@[simp] theorem State.emit_cur (s : State) (bytes : List Byte) : (s.emit bytes).cur = s.cur := rfl
@[simp] theorem State.emit_key (s : State) (bytes : List Byte) : (s.emit bytes).key = s.key := rfl
@[simp] theorem State.emit_biv (s : State) (bytes : List Byte) : (s.emit bytes).biv = s.biv := rfl
@[simp] theorem State.emit_cap (s : State) (bytes : List Byte) : (s.emit bytes).cap = s.cap := rfl
@[simp] theorem State.emit_off (s : State) (bytes : List Byte) : (s.emit bytes).off = s.off := rfl
@[simp] theorem State.emit_fill (s : State) (bytes : List Byte) : (s.emit bytes).fill = s.fill := rfl
@[simp] theorem State.emit_bufIn (s : State) (bytes : List Byte) : (s.emit bytes).bufIn = s.bufIn := rfl
@[simp] theorem State.emit_outQ (s : State) (bytes : List Byte) : (s.emit bytes).outQ = s.outQ ++ bytes := rfl
@[simp] theorem State.emit_div (s : State) (bytes : List Byte) : (s.emit bytes).div = s.div := rfl
@[simp] theorem State.emit_din (s : State) (bytes : List Byte) : (s.emit bytes).din = s.din := rfl
@[simp] theorem State.emit_ioffLo (s : State) (bytes : List Byte) : (s.emit bytes).ioffLo = s.ioffLo := rfl
@[simp] theorem State.emit_ioffHi (s : State) (bytes : List Byte) : (s.emit bytes).ioffHi = s.ioffHi := rfl
@[simp] theorem State.emit_bufreq (s : State) (bytes : List Byte) : (s.emit bytes).bufreq = s.bufreq := rfl
@[simp] theorem State.emit_keyReg (s : State) (bytes : List Byte) : (s.emit bytes).keyReg = s.keyReg := rfl
@[simp] theorem State.emit_ivReg (s : State) (bytes : List Byte) : (s.emit bytes).ivReg = s.ivReg := rfl
@[simp] theorem State.emit_tiv (s : State) (bytes : List Byte) : (s.emit bytes).tiv = s.tiv := rfl
@[simp] theorem State.emit_tcntLo (s : State) (bytes : List Byte) : (s.emit bytes).tcntLo = s.tcntLo := rfl
@[simp] theorem State.emit_tcntHi (s : State) (bytes : List Byte) : (s.emit bytes).tcntHi = s.tcntHi := rfl
@[simp] theorem State.emit_sinkLog (s : State) (bytes : List Byte) : (s.emit bytes).sinkLog = s.sinkLog := rfl
@[simp] theorem State.emit_primLog (s : State) (bytes : List Byte) : (s.emit bytes).primLog = s.primLog := rfl
@[simp] theorem State.emit_rdata (s : State) (bytes : List Byte) : (s.emit bytes).rdata = s.rdata := rfl
@[simp] theorem State.emit_hostQ (s : State) (bytes : List Byte) : (s.emit bytes).hostQ = s.hostQ := rfl
@[simp] theorem State.emit_hostSeq (s : State) (bytes : List Byte) : (s.emit bytes).hostSeq = s.hostSeq := rfl
@[simp] theorem State.emit_sched (s : State) (bytes : List Byte) : (s.emit bytes).sched = s.sched := rfl
@[simp] theorem State.emit_tick (s : State) (bytes : List Byte) : (s.emit bytes).tick = s.tick := rfl

/-! ### `s.accept w` -/

@[simp] theorem State.accept_phase (s : State) (w : Word) : (s.accept w).phase = s.phase := rfl
@[simp] theorem State.accept_err (s : State) (w : Word) : (s.accept w).err = s.err := rfl
@[simp] theorem State.accept_cur (s : State) (w : Word) : (s.accept w).cur = some (s.sampleWord w) := rfl
@[simp] theorem State.accept_key (s : State) (w : Word) : (s.accept w).key = s.key := rfl
@[simp] theorem State.accept_biv (s : State) (w : Word) : (s.accept w).biv = s.biv := rfl
@[simp] theorem State.accept_cap (s : State) (w : Word) : (s.accept w).cap = s.cap := rfl
@[simp] theorem State.accept_off (s : State) (w : Word) : (s.accept w).off = s.off := rfl
@[simp] theorem State.accept_fill (s : State) (w : Word) : (s.accept w).fill = s.fill := rfl
@[simp] theorem State.accept_bufIn (s : State) (w : Word) : (s.accept w).bufIn = s.bufIn := rfl
@[simp] theorem State.accept_outQ (s : State) (w : Word) : (s.accept w).outQ = s.outQ := rfl
@[simp] theorem State.accept_div (s : State) (w : Word) : (s.accept w).div = s.div := rfl
@[simp] theorem State.accept_din (s : State) (w : Word) : (s.accept w).din = s.din := rfl
@[simp] theorem State.accept_ioffLo (s : State) (w : Word) : (s.accept w).ioffLo = s.ioffLo := rfl
@[simp] theorem State.accept_ioffHi (s : State) (w : Word) : (s.accept w).ioffHi = s.ioffHi := rfl
@[simp] theorem State.accept_bufreq (s : State) (w : Word) : (s.accept w).bufreq = s.bufreq := rfl
@[simp] theorem State.accept_keyReg (s : State) (w : Word) : (s.accept w).keyReg = s.keyReg := rfl
@[simp] theorem State.accept_ivReg (s : State) (w : Word) : (s.accept w).ivReg = s.ivReg := rfl
@[simp] theorem State.accept_tiv (s : State) (w : Word) : (s.accept w).tiv = s.tiv := rfl
@[simp] theorem State.accept_tcntLo (s : State) (w : Word) : (s.accept w).tcntLo = s.tcntLo := rfl
@[simp] theorem State.accept_tcntHi (s : State) (w : Word) : (s.accept w).tcntHi = s.tcntHi := rfl
@[simp] theorem State.accept_sinkLog (s : State) (w : Word) : (s.accept w).sinkLog = s.sinkLog := rfl
@[simp] theorem State.accept_primLog (s : State) (w : Word) : (s.accept w).primLog = s.primLog := rfl
@[simp] theorem State.accept_rdata (s : State) (w : Word) : (s.accept w).rdata = s.rdata := rfl
@[simp] theorem State.accept_hostQ (s : State) (w : Word) : (s.accept w).hostQ = s.hostQ := rfl
@[simp] theorem State.accept_hostSeq (s : State) (w : Word) : (s.accept w).hostSeq = s.hostSeq := rfl
@[simp] theorem State.accept_sched (s : State) (w : Word) : (s.accept w).sched = s.sched := rfl
@[simp] theorem State.accept_tick (s : State) (w : Word) : (s.accept w).tick = s.tick := rfl

/-! ### `s.clearStaging` -/

@[simp] theorem State.clearStaging_phase (s : State) : (s.clearStaging).phase = s.phase := rfl
@[simp] theorem State.clearStaging_err (s : State) : (s.clearStaging).err = s.err := rfl
@[simp] theorem State.clearStaging_cur (s : State) : (s.clearStaging).cur = s.cur := rfl
@[simp] theorem State.clearStaging_key (s : State) : (s.clearStaging).key = s.key := rfl
@[simp] theorem State.clearStaging_biv (s : State) : (s.clearStaging).biv = s.biv := rfl
@[simp] theorem State.clearStaging_cap (s : State) : (s.clearStaging).cap = s.cap := rfl
@[simp] theorem State.clearStaging_off (s : State) : (s.clearStaging).off = s.off := rfl
@[simp] theorem State.clearStaging_fill (s : State) : (s.clearStaging).fill = s.fill := rfl
@[simp] theorem State.clearStaging_bufIn (s : State) : (s.clearStaging).bufIn = s.bufIn := rfl
@[simp] theorem State.clearStaging_outQ (s : State) : (s.clearStaging).outQ = s.outQ := rfl
@[simp] theorem State.clearStaging_div (s : State) : (s.clearStaging).div = s.div := rfl
@[simp] theorem State.clearStaging_din (s : State) : (s.clearStaging).din = s.din := rfl
@[simp] theorem State.clearStaging_ioffLo (s : State) : (s.clearStaging).ioffLo = s.ioffLo := rfl
@[simp] theorem State.clearStaging_ioffHi (s : State) : (s.clearStaging).ioffHi = s.ioffHi := rfl
@[simp] theorem State.clearStaging_bufreq (s : State) : (s.clearStaging).bufreq = s.bufreq := rfl
@[simp] theorem State.clearStaging_keyReg (s : State) : (s.clearStaging).keyReg = Vector.replicate 8 0 := rfl
@[simp] theorem State.clearStaging_ivReg (s : State) : (s.clearStaging).ivReg = Vector.replicate 4 0 := rfl
@[simp] theorem State.clearStaging_tiv (s : State) : (s.clearStaging).tiv = s.tiv := rfl
@[simp] theorem State.clearStaging_tcntLo (s : State) : (s.clearStaging).tcntLo = s.tcntLo := rfl
@[simp] theorem State.clearStaging_tcntHi (s : State) : (s.clearStaging).tcntHi = s.tcntHi := rfl
@[simp] theorem State.clearStaging_sinkLog (s : State) : (s.clearStaging).sinkLog = s.sinkLog := rfl
@[simp] theorem State.clearStaging_primLog (s : State) : (s.clearStaging).primLog = s.primLog := rfl
@[simp] theorem State.clearStaging_rdata (s : State) : (s.clearStaging).rdata = s.rdata := rfl
@[simp] theorem State.clearStaging_hostQ (s : State) : (s.clearStaging).hostQ = s.hostQ := rfl
@[simp] theorem State.clearStaging_hostSeq (s : State) : (s.clearStaging).hostSeq = s.hostSeq := rfl
@[simp] theorem State.clearStaging_sched (s : State) : (s.clearStaging).sched = s.sched := rfl
@[simp] theorem State.clearStaging_tick (s : State) : (s.clearStaging).tick = s.tick := rfl

/-! ### `s.construct k b c o` -/

@[simp] theorem State.construct_phase (s : State) (k : List Byte) (b : Block) (c : Nat) (o : DWord) : (s.construct k b c o).phase = .opened := rfl
@[simp] theorem State.construct_err (s : State) (k : List Byte) (b : Block) (c : Nat) (o : DWord) : (s.construct k b c o).err = .ok := rfl
@[simp] theorem State.construct_cur (s : State) (k : List Byte) (b : Block) (c : Nat) (o : DWord) : (s.construct k b c o).cur = none := rfl
@[simp] theorem State.construct_key (s : State) (k : List Byte) (b : Block) (c : Nat) (o : DWord) : (s.construct k b c o).key = k := rfl
@[simp] theorem State.construct_biv (s : State) (k : List Byte) (b : Block) (c : Nat) (o : DWord) : (s.construct k b c o).biv = b := rfl
@[simp] theorem State.construct_cap (s : State) (k : List Byte) (b : Block) (c : Nat) (o : DWord) : (s.construct k b c o).cap = c := rfl
@[simp] theorem State.construct_off (s : State) (k : List Byte) (b : Block) (c : Nat) (o : DWord) : (s.construct k b c o).off = o := rfl
@[simp] theorem State.construct_fill (s : State) (k : List Byte) (b : Block) (c : Nat) (o : DWord) : (s.construct k b c o).fill = o.toNat % Config.blockBytes := rfl
@[simp] theorem State.construct_bufIn (s : State) (k : List Byte) (b : Block) (c : Nat) (o : DWord) : (s.construct k b c o).bufIn = [] := rfl
@[simp] theorem State.construct_outQ (s : State) (k : List Byte) (b : Block) (c : Nat) (o : DWord) : (s.construct k b c o).outQ = [] := rfl
@[simp] theorem State.construct_div (s : State) (k : List Byte) (b : Block) (c : Nat) (o : DWord) : (s.construct k b c o).div = s.div := rfl
@[simp] theorem State.construct_din (s : State) (k : List Byte) (b : Block) (c : Nat) (o : DWord) : (s.construct k b c o).din = s.din := rfl
@[simp] theorem State.construct_ioffLo (s : State) (k : List Byte) (b : Block) (c : Nat) (o : DWord) : (s.construct k b c o).ioffLo = s.ioffLo := rfl
@[simp] theorem State.construct_ioffHi (s : State) (k : List Byte) (b : Block) (c : Nat) (o : DWord) : (s.construct k b c o).ioffHi = s.ioffHi := rfl
@[simp] theorem State.construct_bufreq (s : State) (k : List Byte) (b : Block) (c : Nat) (o : DWord) : (s.construct k b c o).bufreq = s.bufreq := rfl
@[simp] theorem State.construct_keyReg (s : State) (k : List Byte) (b : Block) (c : Nat) (o : DWord) : (s.construct k b c o).keyReg = s.keyReg := rfl
@[simp] theorem State.construct_ivReg (s : State) (k : List Byte) (b : Block) (c : Nat) (o : DWord) : (s.construct k b c o).ivReg = s.ivReg := rfl
@[simp] theorem State.construct_tiv (s : State) (k : List Byte) (b : Block) (c : Nat) (o : DWord) : (s.construct k b c o).tiv = s.tiv := rfl
@[simp] theorem State.construct_tcntLo (s : State) (k : List Byte) (b : Block) (c : Nat) (o : DWord) : (s.construct k b c o).tcntLo = s.tcntLo := rfl
@[simp] theorem State.construct_tcntHi (s : State) (k : List Byte) (b : Block) (c : Nat) (o : DWord) : (s.construct k b c o).tcntHi = s.tcntHi := rfl
@[simp] theorem State.construct_sinkLog (s : State) (k : List Byte) (b : Block) (c : Nat) (o : DWord) : (s.construct k b c o).sinkLog = s.sinkLog := rfl
@[simp] theorem State.construct_primLog (s : State) (k : List Byte) (b : Block) (c : Nat) (o : DWord) : (s.construct k b c o).primLog = s.primLog := rfl
@[simp] theorem State.construct_rdata (s : State) (k : List Byte) (b : Block) (c : Nat) (o : DWord) : (s.construct k b c o).rdata = s.rdata := rfl
@[simp] theorem State.construct_hostQ (s : State) (k : List Byte) (b : Block) (c : Nat) (o : DWord) : (s.construct k b c o).hostQ = s.hostQ := rfl
@[simp] theorem State.construct_hostSeq (s : State) (k : List Byte) (b : Block) (c : Nat) (o : DWord) : (s.construct k b c o).hostSeq = s.hostSeq := rfl
@[simp] theorem State.construct_sched (s : State) (k : List Byte) (b : Block) (c : Nat) (o : DWord) : (s.construct k b c o).sched = s.sched := rfl
@[simp] theorem State.construct_tick (s : State) (k : List Byte) (b : Block) (c : Nat) (o : DWord) : (s.construct k b c o).tick = s.tick := rfl

/-! ### `s.closeInstance` -/

@[simp] theorem State.closeInstance_phase (s : State) : (s.closeInstance).phase = .closed := rfl
@[simp] theorem State.closeInstance_err (s : State) : (s.closeInstance).err = .ok := rfl
@[simp] theorem State.closeInstance_cur (s : State) : (s.closeInstance).cur = none := rfl
@[simp] theorem State.closeInstance_key (s : State) : (s.closeInstance).key = [] := rfl
@[simp] theorem State.closeInstance_biv (s : State) : (s.closeInstance).biv = 0 := rfl
@[simp] theorem State.closeInstance_cap (s : State) : (s.closeInstance).cap = s.cap := rfl
@[simp] theorem State.closeInstance_off (s : State) : (s.closeInstance).off = s.off := rfl
@[simp] theorem State.closeInstance_fill (s : State) : (s.closeInstance).fill = s.fill := rfl
@[simp] theorem State.closeInstance_bufIn (s : State) : (s.closeInstance).bufIn = [] := rfl
@[simp] theorem State.closeInstance_outQ (s : State) : (s.closeInstance).outQ = s.outQ := rfl
@[simp] theorem State.closeInstance_div (s : State) : (s.closeInstance).div = s.div := rfl
@[simp] theorem State.closeInstance_din (s : State) : (s.closeInstance).din = s.din := rfl
@[simp] theorem State.closeInstance_ioffLo (s : State) : (s.closeInstance).ioffLo = s.ioffLo := rfl
@[simp] theorem State.closeInstance_ioffHi (s : State) : (s.closeInstance).ioffHi = s.ioffHi := rfl
@[simp] theorem State.closeInstance_bufreq (s : State) : (s.closeInstance).bufreq = s.bufreq := rfl
@[simp] theorem State.closeInstance_keyReg (s : State) : (s.closeInstance).keyReg = s.keyReg := rfl
@[simp] theorem State.closeInstance_ivReg (s : State) : (s.closeInstance).ivReg = s.ivReg := rfl
@[simp] theorem State.closeInstance_tiv (s : State) : (s.closeInstance).tiv = s.tiv := rfl
@[simp] theorem State.closeInstance_tcntLo (s : State) : (s.closeInstance).tcntLo = s.tcntLo := rfl
@[simp] theorem State.closeInstance_tcntHi (s : State) : (s.closeInstance).tcntHi = s.tcntHi := rfl
@[simp] theorem State.closeInstance_sinkLog (s : State) : (s.closeInstance).sinkLog = s.sinkLog := rfl
@[simp] theorem State.closeInstance_primLog (s : State) : (s.closeInstance).primLog = s.primLog := rfl
@[simp] theorem State.closeInstance_rdata (s : State) : (s.closeInstance).rdata = s.rdata := rfl
@[simp] theorem State.closeInstance_hostQ (s : State) : (s.closeInstance).hostQ = s.hostQ := rfl
@[simp] theorem State.closeInstance_hostSeq (s : State) : (s.closeInstance).hostSeq = s.hostSeq := rfl
@[simp] theorem State.closeInstance_sched (s : State) : (s.closeInstance).sched = s.sched := rfl
@[simp] theorem State.closeInstance_tick (s : State) : (s.closeInstance).tick = s.tick := rfl

/-! ### `s.commit ks` -/

@[simp] theorem State.commit_phase (s : State) (ks : List Block) : (s.commit ks).phase = s.phase := rfl
@[simp] theorem State.commit_err (s : State) (ks : List Block) : (s.commit ks).err = s.err := rfl
@[simp] theorem State.commit_cur (s : State) (ks : List Block) : (s.commit ks).cur = s.cur := rfl
@[simp] theorem State.commit_key (s : State) (ks : List Block) : (s.commit ks).key = s.key := rfl
@[simp] theorem State.commit_biv (s : State) (ks : List Block) : (s.commit ks).biv = s.biv := rfl
@[simp] theorem State.commit_cap (s : State) (ks : List Block) : (s.commit ks).cap = s.cap := rfl
@[simp] theorem State.commit_off (s : State) (ks : List Block) : (s.commit ks).off = s.off + BitVec.ofNat 64 s.stagedCount := rfl
@[simp] theorem State.commit_fill (s : State) (ks : List Block) : (s.commit ks).fill = (s.off + BitVec.ofNat 64 s.stagedCount).toNat % Config.blockBytes := rfl
@[simp] theorem State.commit_bufIn (s : State) (ks : List Block) : (s.commit ks).bufIn = s.bufIn := rfl
@[simp] theorem State.commit_outQ (s : State) (ks : List Block) : (s.commit ks).outQ = s.outQ ++ transformed s ks := rfl
@[simp] theorem State.commit_div (s : State) (ks : List Block) : (s.commit ks).div = s.div := rfl
@[simp] theorem State.commit_din (s : State) (ks : List Block) : (s.commit ks).din = s.din := rfl
@[simp] theorem State.commit_ioffLo (s : State) (ks : List Block) : (s.commit ks).ioffLo = s.ioffLo := rfl
@[simp] theorem State.commit_ioffHi (s : State) (ks : List Block) : (s.commit ks).ioffHi = s.ioffHi := rfl
@[simp] theorem State.commit_bufreq (s : State) (ks : List Block) : (s.commit ks).bufreq = s.bufreq := rfl
@[simp] theorem State.commit_keyReg (s : State) (ks : List Block) : (s.commit ks).keyReg = s.keyReg := rfl
@[simp] theorem State.commit_ivReg (s : State) (ks : List Block) : (s.commit ks).ivReg = s.ivReg := rfl
@[simp] theorem State.commit_tiv (s : State) (ks : List Block) : (s.commit ks).tiv = s.tiv := rfl
@[simp] theorem State.commit_tcntLo (s : State) (ks : List Block) : (s.commit ks).tcntLo = s.tcntLo := rfl
@[simp] theorem State.commit_tcntHi (s : State) (ks : List Block) : (s.commit ks).tcntHi = s.tcntHi := rfl
@[simp] theorem State.commit_sinkLog (s : State) (ks : List Block) : (s.commit ks).sinkLog = s.sinkLog := rfl
@[simp] theorem State.commit_primLog (s : State) (ks : List Block) : (s.commit ks).primLog = s.primLog := rfl
@[simp] theorem State.commit_rdata (s : State) (ks : List Block) : (s.commit ks).rdata = s.rdata := rfl
@[simp] theorem State.commit_hostQ (s : State) (ks : List Block) : (s.commit ks).hostQ = s.hostQ := rfl
@[simp] theorem State.commit_hostSeq (s : State) (ks : List Block) : (s.commit ks).hostSeq = s.hostSeq := rfl
@[simp] theorem State.commit_sched (s : State) (ks : List Block) : (s.commit ks).sched = s.sched := rfl
@[simp] theorem State.commit_tick (s : State) (ks : List Block) : (s.commit ks).tick = s.tick := rfl

/-! ### `s.hostRead o` -/

@[simp] theorem State.hostRead_phase (s : State) (o : BitVec 8) : (s.hostRead o).phase = s.phase := rfl
@[simp] theorem State.hostRead_err (s : State) (o : BitVec 8) : (s.hostRead o).err = s.err := rfl
@[simp] theorem State.hostRead_cur (s : State) (o : BitVec 8) : (s.hostRead o).cur = s.cur := rfl
@[simp] theorem State.hostRead_key (s : State) (o : BitVec 8) : (s.hostRead o).key = s.key := rfl
@[simp] theorem State.hostRead_biv (s : State) (o : BitVec 8) : (s.hostRead o).biv = s.biv := rfl
@[simp] theorem State.hostRead_cap (s : State) (o : BitVec 8) : (s.hostRead o).cap = s.cap := rfl
@[simp] theorem State.hostRead_off (s : State) (o : BitVec 8) : (s.hostRead o).off = s.off := rfl
@[simp] theorem State.hostRead_fill (s : State) (o : BitVec 8) : (s.hostRead o).fill = s.fill := rfl
@[simp] theorem State.hostRead_bufIn (s : State) (o : BitVec 8) : (s.hostRead o).bufIn = s.bufIn := rfl
@[simp] theorem State.hostRead_outQ (s : State) (o : BitVec 8) : (s.hostRead o).outQ = s.outQ := rfl
@[simp] theorem State.hostRead_div (s : State) (o : BitVec 8) : (s.hostRead o).div = s.div := rfl
@[simp] theorem State.hostRead_din (s : State) (o : BitVec 8) : (s.hostRead o).din = s.din := rfl
@[simp] theorem State.hostRead_ioffLo (s : State) (o : BitVec 8) : (s.hostRead o).ioffLo = s.ioffLo := rfl
@[simp] theorem State.hostRead_ioffHi (s : State) (o : BitVec 8) : (s.hostRead o).ioffHi = s.ioffHi := rfl
@[simp] theorem State.hostRead_bufreq (s : State) (o : BitVec 8) : (s.hostRead o).bufreq = s.bufreq := rfl
@[simp] theorem State.hostRead_keyReg (s : State) (o : BitVec 8) : (s.hostRead o).keyReg = s.keyReg := rfl
@[simp] theorem State.hostRead_ivReg (s : State) (o : BitVec 8) : (s.hostRead o).ivReg = s.ivReg := rfl
@[simp] theorem State.hostRead_tiv (s : State) (o : BitVec 8) : (s.hostRead o).tiv = s.tiv := rfl
@[simp] theorem State.hostRead_tcntLo (s : State) (o : BitVec 8) : (s.hostRead o).tcntLo = s.tcntLo := rfl
@[simp] theorem State.hostRead_tcntHi (s : State) (o : BitVec 8) : (s.hostRead o).tcntHi = s.tcntHi := rfl
@[simp] theorem State.hostRead_sinkLog (s : State) (o : BitVec 8) : (s.hostRead o).sinkLog = s.sinkLog := rfl
@[simp] theorem State.hostRead_primLog (s : State) (o : BitVec 8) : (s.hostRead o).primLog = s.primLog := rfl
@[simp] theorem State.hostRead_rdata (s : State) (o : BitVec 8) : (s.hostRead o).rdata = busRead s o := rfl
@[simp] theorem State.hostRead_hostQ (s : State) (o : BitVec 8) : (s.hostRead o).hostQ = s.hostQ := rfl
@[simp] theorem State.hostRead_hostSeq (s : State) (o : BitVec 8) : (s.hostRead o).hostSeq = s.hostSeq := rfl
@[simp] theorem State.hostRead_sched (s : State) (o : BitVec 8) : (s.hostRead o).sched = s.sched := rfl
@[simp] theorem State.hostRead_tick (s : State) (o : BitVec 8) : (s.hostRead o).tick = s.tick := rfl

/-! ### `s.withFetchWord nbits w` -/

@[simp] theorem State.withFetchWord_phase (s : State) (nbits w : Nat) : (s.withFetchWord nbits w).phase = s.phase := rfl
@[simp] theorem State.withFetchWord_err (s : State) (nbits w : Nat) : (s.withFetchWord nbits w).err = s.err := rfl
@[simp] theorem State.withFetchWord_cur (s : State) (nbits w : Nat) : (s.withFetchWord nbits w).cur = some (s.sampleWord (BitVec.ofNat 32 (tableWord nbits w))) := rfl
@[simp] theorem State.withFetchWord_key (s : State) (nbits w : Nat) : (s.withFetchWord nbits w).key = s.key := rfl
@[simp] theorem State.withFetchWord_biv (s : State) (nbits w : Nat) : (s.withFetchWord nbits w).biv = s.biv := rfl
@[simp] theorem State.withFetchWord_cap (s : State) (nbits w : Nat) : (s.withFetchWord nbits w).cap = s.cap := rfl
@[simp] theorem State.withFetchWord_off (s : State) (nbits w : Nat) : (s.withFetchWord nbits w).off = s.off := rfl
@[simp] theorem State.withFetchWord_fill (s : State) (nbits w : Nat) : (s.withFetchWord nbits w).fill = s.fill := rfl
@[simp] theorem State.withFetchWord_bufIn (s : State) (nbits w : Nat) : (s.withFetchWord nbits w).bufIn = s.bufIn := rfl
@[simp] theorem State.withFetchWord_outQ (s : State) (nbits w : Nat) : (s.withFetchWord nbits w).outQ = s.outQ := rfl
@[simp] theorem State.withFetchWord_div (s : State) (nbits w : Nat) : (s.withFetchWord nbits w).div = s.div := rfl
@[simp] theorem State.withFetchWord_din (s : State) (nbits w : Nat) : (s.withFetchWord nbits w).din = s.din := rfl
@[simp] theorem State.withFetchWord_ioffLo (s : State) (nbits w : Nat) : (s.withFetchWord nbits w).ioffLo = s.ioffLo := rfl
@[simp] theorem State.withFetchWord_ioffHi (s : State) (nbits w : Nat) : (s.withFetchWord nbits w).ioffHi = s.ioffHi := rfl
@[simp] theorem State.withFetchWord_bufreq (s : State) (nbits w : Nat) : (s.withFetchWord nbits w).bufreq = s.bufreq := rfl
@[simp] theorem State.withFetchWord_keyReg (s : State) (nbits w : Nat) : (s.withFetchWord nbits w).keyReg = s.keyReg := rfl
@[simp] theorem State.withFetchWord_ivReg (s : State) (nbits w : Nat) : (s.withFetchWord nbits w).ivReg = s.ivReg := rfl
@[simp] theorem State.withFetchWord_tiv (s : State) (nbits w : Nat) : (s.withFetchWord nbits w).tiv = s.tiv := rfl
@[simp] theorem State.withFetchWord_tcntLo (s : State) (nbits w : Nat) : (s.withFetchWord nbits w).tcntLo = s.tcntLo := rfl
@[simp] theorem State.withFetchWord_tcntHi (s : State) (nbits w : Nat) : (s.withFetchWord nbits w).tcntHi = s.tcntHi := rfl
@[simp] theorem State.withFetchWord_sinkLog (s : State) (nbits w : Nat) : (s.withFetchWord nbits w).sinkLog = s.sinkLog := rfl
@[simp] theorem State.withFetchWord_primLog (s : State) (nbits w : Nat) : (s.withFetchWord nbits w).primLog = s.primLog := rfl
@[simp] theorem State.withFetchWord_rdata (s : State) (nbits w : Nat) : (s.withFetchWord nbits w).rdata = s.rdata := rfl
@[simp] theorem State.withFetchWord_hostQ (s : State) (nbits w : Nat) : (s.withFetchWord nbits w).hostQ = s.hostQ := rfl
@[simp] theorem State.withFetchWord_hostSeq (s : State) (nbits w : Nat) : (s.withFetchWord nbits w).hostSeq = s.hostSeq := rfl
@[simp] theorem State.withFetchWord_sched (s : State) (nbits w : Nat) : (s.withFetchWord nbits w).sched = .engine :: s.sched := rfl
@[simp] theorem State.withFetchWord_tick (s : State) (nbits w : Nat) : (s.withFetchWord nbits w).tick = s.tick := rfl

/-! ### The reset input -/

@[simp] theorem State.resetBlock_phase (s : State) : s.resetBlock.phase = State.reset.phase := rfl
@[simp] theorem State.resetBlock_err (s : State) : s.resetBlock.err = State.reset.err := rfl
@[simp] theorem State.resetBlock_cur (s : State) : s.resetBlock.cur = State.reset.cur := rfl
@[simp] theorem State.resetBlock_key (s : State) : s.resetBlock.key = State.reset.key := rfl
@[simp] theorem State.resetBlock_biv (s : State) : s.resetBlock.biv = State.reset.biv := rfl
@[simp] theorem State.resetBlock_cap (s : State) : s.resetBlock.cap = State.reset.cap := rfl
@[simp] theorem State.resetBlock_off (s : State) : s.resetBlock.off = State.reset.off := rfl
@[simp] theorem State.resetBlock_fill (s : State) : s.resetBlock.fill = State.reset.fill := rfl
@[simp] theorem State.resetBlock_bufIn (s : State) : s.resetBlock.bufIn = State.reset.bufIn := rfl
@[simp] theorem State.resetBlock_outQ (s : State) : s.resetBlock.outQ = State.reset.outQ := rfl
@[simp] theorem State.resetBlock_div (s : State) : s.resetBlock.div = State.reset.div := rfl
@[simp] theorem State.resetBlock_din (s : State) : s.resetBlock.din = State.reset.din := rfl
@[simp] theorem State.resetBlock_ioffLo (s : State) : s.resetBlock.ioffLo = State.reset.ioffLo := rfl
@[simp] theorem State.resetBlock_ioffHi (s : State) : s.resetBlock.ioffHi = State.reset.ioffHi := rfl
@[simp] theorem State.resetBlock_bufreq (s : State) : s.resetBlock.bufreq = State.reset.bufreq := rfl
@[simp] theorem State.resetBlock_keyReg (s : State) : s.resetBlock.keyReg = State.reset.keyReg := rfl
@[simp] theorem State.resetBlock_ivReg (s : State) : s.resetBlock.ivReg = State.reset.ivReg := rfl
@[simp] theorem State.resetBlock_tiv (s : State) : s.resetBlock.tiv = State.reset.tiv := rfl
@[simp] theorem State.resetBlock_tcntLo (s : State) : s.resetBlock.tcntLo = State.reset.tcntLo := rfl
@[simp] theorem State.resetBlock_tcntHi (s : State) : s.resetBlock.tcntHi = State.reset.tcntHi := rfl
@[simp] theorem State.resetBlock_sinkLog (s : State) : s.resetBlock.sinkLog = s.sinkLog := rfl
@[simp] theorem State.resetBlock_primLog (s : State) : s.resetBlock.primLog = s.primLog := rfl
@[simp] theorem State.resetBlock_rdata (s : State) : s.resetBlock.rdata = s.rdata := rfl
@[simp] theorem State.resetBlock_hostQ (s : State) : s.resetBlock.hostQ = s.hostQ := rfl
@[simp] theorem State.resetBlock_hostSeq (s : State) : s.resetBlock.hostSeq = s.hostSeq := rfl
@[simp] theorem State.resetBlock_sched (s : State) : s.resetBlock.sched = s.sched := rfl
@[simp] theorem State.resetBlock_tick (s : State) : s.resetBlock.tick = s.tick := rfl

/-! ### Using up a choice or a host operation -/

@[simp] theorem State.popAgent_phase (s : State) : s.popAgent.phase = s.phase := by
  unfold State.popAgent; split <;> rfl
@[simp] theorem State.popAgent_err (s : State) : s.popAgent.err = s.err := by
  unfold State.popAgent; split <;> rfl
@[simp] theorem State.popAgent_cur (s : State) : s.popAgent.cur = s.cur := by
  unfold State.popAgent; split <;> rfl
@[simp] theorem State.popAgent_key (s : State) : s.popAgent.key = s.key := by
  unfold State.popAgent; split <;> rfl
@[simp] theorem State.popAgent_biv (s : State) : s.popAgent.biv = s.biv := by
  unfold State.popAgent; split <;> rfl
@[simp] theorem State.popAgent_cap (s : State) : s.popAgent.cap = s.cap := by
  unfold State.popAgent; split <;> rfl
@[simp] theorem State.popAgent_off (s : State) : s.popAgent.off = s.off := by
  unfold State.popAgent; split <;> rfl
@[simp] theorem State.popAgent_fill (s : State) : s.popAgent.fill = s.fill := by
  unfold State.popAgent; split <;> rfl
@[simp] theorem State.popAgent_bufIn (s : State) : s.popAgent.bufIn = s.bufIn := by
  unfold State.popAgent; split <;> rfl
@[simp] theorem State.popAgent_outQ (s : State) : s.popAgent.outQ = s.outQ := by
  unfold State.popAgent; split <;> rfl
@[simp] theorem State.popAgent_div (s : State) : s.popAgent.div = s.div := by
  unfold State.popAgent; split <;> rfl
@[simp] theorem State.popAgent_din (s : State) : s.popAgent.din = s.din := by
  unfold State.popAgent; split <;> rfl
@[simp] theorem State.popAgent_ioffLo (s : State) : s.popAgent.ioffLo = s.ioffLo := by
  unfold State.popAgent; split <;> rfl
@[simp] theorem State.popAgent_ioffHi (s : State) : s.popAgent.ioffHi = s.ioffHi := by
  unfold State.popAgent; split <;> rfl
@[simp] theorem State.popAgent_bufreq (s : State) : s.popAgent.bufreq = s.bufreq := by
  unfold State.popAgent; split <;> rfl
@[simp] theorem State.popAgent_keyReg (s : State) : s.popAgent.keyReg = s.keyReg := by
  unfold State.popAgent; split <;> rfl
@[simp] theorem State.popAgent_ivReg (s : State) : s.popAgent.ivReg = s.ivReg := by
  unfold State.popAgent; split <;> rfl
@[simp] theorem State.popAgent_tiv (s : State) : s.popAgent.tiv = s.tiv := by
  unfold State.popAgent; split <;> rfl
@[simp] theorem State.popAgent_tcntLo (s : State) : s.popAgent.tcntLo = s.tcntLo := by
  unfold State.popAgent; split <;> rfl
@[simp] theorem State.popAgent_tcntHi (s : State) : s.popAgent.tcntHi = s.tcntHi := by
  unfold State.popAgent; split <;> rfl
@[simp] theorem State.popAgent_sinkLog (s : State) : s.popAgent.sinkLog = s.sinkLog := by
  unfold State.popAgent; split <;> rfl
@[simp] theorem State.popAgent_primLog (s : State) : s.popAgent.primLog = s.primLog := by
  unfold State.popAgent; split <;> rfl
@[simp] theorem State.popAgent_rdata (s : State) : s.popAgent.rdata = s.rdata := by
  unfold State.popAgent; split <;> rfl
@[simp] theorem State.popAgent_hostQ (s : State) : s.popAgent.hostQ = s.hostQ := by
  unfold State.popAgent; split <;> rfl
@[simp] theorem State.popAgent_hostSeq (s : State) : s.popAgent.hostSeq = s.hostSeq := by
  unfold State.popAgent; split <;> rfl
@[simp] theorem State.popHost_phase (s : State) : s.popHost.phase = s.phase := by
  unfold State.popHost; split <;> rfl
@[simp] theorem State.popHost_err (s : State) : s.popHost.err = s.err := by
  unfold State.popHost; split <;> rfl
@[simp] theorem State.popHost_cur (s : State) : s.popHost.cur = s.cur := by
  unfold State.popHost; split <;> rfl
@[simp] theorem State.popHost_key (s : State) : s.popHost.key = s.key := by
  unfold State.popHost; split <;> rfl
@[simp] theorem State.popHost_biv (s : State) : s.popHost.biv = s.biv := by
  unfold State.popHost; split <;> rfl
@[simp] theorem State.popHost_cap (s : State) : s.popHost.cap = s.cap := by
  unfold State.popHost; split <;> rfl
@[simp] theorem State.popHost_off (s : State) : s.popHost.off = s.off := by
  unfold State.popHost; split <;> rfl
@[simp] theorem State.popHost_fill (s : State) : s.popHost.fill = s.fill := by
  unfold State.popHost; split <;> rfl
@[simp] theorem State.popHost_bufIn (s : State) : s.popHost.bufIn = s.bufIn := by
  unfold State.popHost; split <;> rfl
@[simp] theorem State.popHost_outQ (s : State) : s.popHost.outQ = s.outQ := by
  unfold State.popHost; split <;> rfl
@[simp] theorem State.popHost_div (s : State) : s.popHost.div = s.div := by
  unfold State.popHost; split <;> rfl
@[simp] theorem State.popHost_din (s : State) : s.popHost.din = s.din := by
  unfold State.popHost; split <;> rfl
@[simp] theorem State.popHost_ioffLo (s : State) : s.popHost.ioffLo = s.ioffLo := by
  unfold State.popHost; split <;> rfl
@[simp] theorem State.popHost_ioffHi (s : State) : s.popHost.ioffHi = s.ioffHi := by
  unfold State.popHost; split <;> rfl
@[simp] theorem State.popHost_bufreq (s : State) : s.popHost.bufreq = s.bufreq := by
  unfold State.popHost; split <;> rfl
@[simp] theorem State.popHost_keyReg (s : State) : s.popHost.keyReg = s.keyReg := by
  unfold State.popHost; split <;> rfl
@[simp] theorem State.popHost_ivReg (s : State) : s.popHost.ivReg = s.ivReg := by
  unfold State.popHost; split <;> rfl
@[simp] theorem State.popHost_tiv (s : State) : s.popHost.tiv = s.tiv := by
  unfold State.popHost; split <;> rfl
@[simp] theorem State.popHost_tcntLo (s : State) : s.popHost.tcntLo = s.tcntLo := by
  unfold State.popHost; split <;> rfl
@[simp] theorem State.popHost_tcntHi (s : State) : s.popHost.tcntHi = s.tcntHi := by
  unfold State.popHost; split <;> rfl
@[simp] theorem State.popHost_sinkLog (s : State) : s.popHost.sinkLog = s.sinkLog := by
  unfold State.popHost; split <;> rfl
@[simp] theorem State.popHost_primLog (s : State) : s.popHost.primLog = s.primLog := by
  unfold State.popHost; split <;> rfl
@[simp] theorem State.popHost_rdata (s : State) : s.popHost.rdata = s.rdata := by
  unfold State.popHost; split <;> rfl
@[simp] theorem State.popHost_sched (s : State) : s.popHost.sched = s.sched := by
  unfold State.popHost; split <;> rfl
@[simp] theorem State.popHost_tick (s : State) : s.popHost.tick = s.tick := by
  unfold State.popHost; split <;> rfl

end Sys2Proof.Machine
end

