-- ==== Sys2Proof/Laws/Process.lean ====
section
/-!
SUPPORT. What the shared operations of the stream commands do, each said once: appending (20_memory.md R90), the
primitive's invocations (41_stream_transform.md R159), `process` (R153 to R161), and the PROC and DRAIN stages (R167).
-/

namespace Sys2Proof.Machine

/-! ### Appending -/

/-- The storage after bytes are written at consecutive indexes. -/
def Memory.writeList : Memory → Nat → List Byte → Memory
  | m, _, [] => m
  | m, i, b :: bytes => Memory.writeList (m.write i b) (i + 1) bytes

theorem Memory.wf_writeList {m : Memory} (hm : m.wf = true) {i : Nat} {bytes : List Byte}
    (h : i + bytes.length ≤ Config.bufMax) : (m.writeList i bytes).wf = true := by
  induction bytes generalizing m i with
  | nil => exact hm
  | cons b bytes ih =>
    simp only [List.length_cons] at h
    exact ih (Memory.wf_write hm (by omega)) (by omega)

theorem Memory.read_writeList {m : Memory} (hm : m.wf = true) {i : Nat} {bytes : List Byte}
    (h : i + bytes.length ≤ Config.bufMax) (j : Nat) :
    (m.writeList i bytes).read j = if i ≤ j then bytes.getD (j - i) (m.read j) else m.read j := by
  induction bytes generalizing m i with
  | nil => simp [Memory.writeList]
  | cons b bytes ih =>
    simp only [List.length_cons] at h
    rw [Memory.writeList, ih (Memory.wf_write hm (by omega)) (by omega), Memory.read_write hm]
    by_cases h1 : i + 1 ≤ j
    · rw [if_pos h1, if_neg (by omega), if_pos (by omega)]
      obtain ⟨k, rfl⟩ : ∃ k, j = i + 1 + k := ⟨j - (i + 1), by omega⟩
      rw [show i + 1 + k - (i + 1) = k by omega, show i + 1 + k - i = k + 1 by omega, List.getD_cons_succ]
    · rw [if_neg h1]
      by_cases h2 : j = i
      · subst h2; simp
      · rw [if_neg h2, if_neg (by omega)]

/-- The range written reads as the bytes written. -/
theorem Memory.readFrom_writeList {m : Memory} (hm : m.wf = true) {i : Nat} {bytes : List Byte}
    (h : i + bytes.length ≤ Config.bufMax) : (m.writeList i bytes).readFrom i bytes.length = bytes := by
  induction bytes generalizing m i with
  | nil => rfl
  | cons b bytes ih =>
    simp only [List.length_cons] at h
    rw [List.length_cons, Memory.readFrom, Memory.writeList, ih (Memory.wf_write hm (by omega)) (by omega),
      Memory.read_writeList (Memory.wf_write hm (by omega)) (by omega), if_neg (by omega), Memory.read_write hm,
      if_pos rfl]

/-- What the append loop does when the capacity fits the storage: it takes as many bytes as there is room for. -/
theorem appendWhile_eq (rem : List Byte) {s : State} (hcap : s.cap ≤ Config.bufMax) :
    appendWhile rem s =
      .ok (rem.drop (s.cap - s.fill),
        { s with bufIn := s.bufIn.writeList s.fill (rem.take (s.cap - s.fill)),
                 fill := s.fill + (rem.take (s.cap - s.fill)).length }) := by
  induction rem generalizing s with
  | nil => simp [appendWhile, Memory.writeList]
  | cons b rem ih =>
    rw [appendWhile]
    split
    · rename_i h
      obtain ⟨k, hk⟩ : ∃ k, s.cap - s.fill = k + 1 := ⟨s.cap - s.fill - 1, by omega⟩
      rw [State.appendIn, if_pos (by omega)]
      dsimp only
      rw [ih (s := { s with bufIn := s.bufIn.write s.fill b, fill := s.fill + 1 }) hcap]
      simp only [show s.cap - (s.fill + 1) = k by omega, hk, List.drop_succ_cons, List.take_succ_cons,
        List.length_cons, Memory.writeList]
      rw [Nat.add_assoc, Nat.add_comm 1]
    · rename_i h
      rw [show s.cap - s.fill = 0 by omega]
      rfl

/-! ### Invocations -/

/-- What a run of invocations answers and records. -/
theorem runPrimitive_eq (P : Primitive) (key : List Byte) (cbs log : List Block) :
    runPrimitive P key cbs log =
      (if callsSucceed P log.length cbs.length then some (cbs.map (P.E key)) else none,
        log ++ cbs.take (callsMade P log.length cbs.length)) := by
  induction cbs generalizing log with
  | nil => simp [runPrimitive, callsSucceed, callsMade]
  | cons cb cbs ih =>
    rw [runPrimitive, List.length_cons, callsSucceed, callsMade]
    by_cases h : P.fails log.length = true
    · simp [h]
    · rw [if_neg h, if_neg h, ih (log ++ [cb]), List.length_append, List.length_singleton]
      rw [Bool.not_eq_true] at h
      rw [h, Bool.not_false, Bool.true_and, List.take_succ_cons, List.append_assoc, List.singleton_append]
      split <;> rename_i h2 <;> split at h2 <;> simp_all

theorem callsMade_le (P : Primitive) (start n : Nat) : callsMade P start n ≤ n := by
  induction n generalizing start with
  | zero => exact Nat.le_refl 0
  | succ n ih => rw [callsMade]; split <;> [omega; exact Nat.succ_le_succ (ih (start + 1))]

theorem callsMade_eq (P : Primitive) {start n : Nat} (h : callsSucceed P start n = true) : callsMade P start n = n := by
  induction n generalizing start with
  | zero => rfl
  | succ n ih =>
    rw [callsSucceed, Bool.and_eq_true, Bool.not_eq_true'] at h
    rw [callsMade, h.1, if_neg (by simp), ih h.2]

@[simp] theorem State.length_counterBlocks (s : State) : s.counterBlocks.length = s.blockCount := by
  simp [State.counterBlocks]

/-! ### The output bytes -/

@[simp] theorem length_blockBytes (b : Block) : (blockBytes b).length = 16 := rfl

theorem blockBytes_getElem? (b : Block) (i : Nat) (h : i < 16) : (blockBytes b)[i]? = some (blockByte b i) := by
  simp [blockBytes, h]

/-- Byte `i` of consecutive blocks. -/
theorem flatMap_blockBytes_getElem? (ks : List Block) (i : Nat) :
    (ks.flatMap blockBytes)[i]? = ks[i / 16]?.map fun b => blockByte b (i % 16) := by
  induction ks generalizing i with
  | nil => simp
  | cons b ks ih =>
    rw [List.flatMap_cons]
    by_cases h : i < 16
    · rw [List.getElem?_append_left (by simpa using h), blockBytes_getElem? b i h, Nat.div_eq_of_lt h,
        Nat.mod_eq_of_lt h]
      rfl
    · rw [List.getElem?_append_right (by simpa using h), ih, length_blockBytes]
      obtain ⟨k, rfl⟩ : ∃ k, i = k + 16 := ⟨i - 16, by omega⟩
      rw [show k + 16 - 16 = k by omega, show (k + 16) / 16 = k / 16 + 1 by omega, show (k + 16) % 16 = k % 16 by omega,
        List.getElem?_cons_succ]

@[simp] theorem length_streamXor (P : Primitive) (key : List Byte) (biv : Block) (pos : Nat) (data : List Byte) :
    (streamXor P key biv pos data).length = data.length := by
  induction data generalizing pos with
  | nil => rfl
  | cons d data ih => simp [streamXor, ih]

theorem streamXor_append (P : Primitive) (key : List Byte) (biv : Block) (pos : Nat) (a b : List Byte) :
    streamXor P key biv pos (a ++ b) = streamXor P key biv pos a ++ streamXor P key biv (pos + a.length) b := by
  induction a generalizing pos with
  | nil => rfl
  | cons d a ih =>
    rw [List.cons_append, streamXor, streamXor, ih, List.cons_append, List.length_cons, Nat.add_assoc,
      Nat.add_comm 1 a.length]

theorem streamXor_getElem? (P : Primitive) (key : List Byte) (biv : Block) (pos : Nat) (data : List Byte) (t : Nat) :
    (streamXor P key biv pos data)[t]? = data[t]?.map fun d => d ^^^ keystreamByte P key biv (pos + t) := by
  induction data generalizing pos t with
  | nil => simp [streamXor]
  | cons d data ih =>
    cases t with
    | zero => simp [streamXor]
    | succ t => rw [streamXor, List.getElem?_cons_succ, ih, List.getElem?_cons_succ, Nat.add_assoc, Nat.add_comm 1 t]

theorem State.off_eq (s : State) : s.off.toNat = 16 * s.ctr + s.pad := by
  simp only [State.ctr, State.pad, Config.blockBytes]
  omega

theorem State.pad_lt (s : State) : s.pad < 16 := by
  simp only [State.pad, Config.blockBytes]
  omega

theorem Memory.readFrom_getElem? (m : Memory) (i n t : Nat) :
    (m.readFrom i n)[t]? = if t < n then some (m.read (i + t)) else none := by
  induction n generalizing i t with
  | zero => simp [Memory.readFrom]
  | succ n ih =>
    cases t with
    | zero => simp [Memory.readFrom]
    | succ t =>
      rw [Memory.readFrom, List.getElem?_cons_succ, ih, Nat.add_assoc, Nat.add_comm 1 t]
      split <;> split <;> first | rfl | omega

/-- The bytes a process emits are the transform of the staged data at their stream positions (R155 to R157, R171). -/
theorem transformed_eq (P : Primitive) (s : State) :
    transformed s (s.counterBlocks.map (P.E s.key)) = streamXor P s.key s.biv s.off.toNat s.staged := by
  apply List.ext_getElem?
  intro t
  have hp := s.pad_lt
  rw [streamXor_getElem?, transformed, List.getElem?_drop, List.getElem?_zipWith, flatMap_blockBytes_getElem?,
    State.readIn, State.staged, Memory.readFrom_getElem?, Memory.readFrom_getElem?]
  by_cases h : s.pad + t < s.fill
  · have hb : (s.pad + t) / 16 < s.blockCount := by
      simp only [State.blockCount, Config.blockBytes]
      omega
    rw [if_pos h, if_pos (by simp only [State.stagedCount]; omega), List.getElem?_map, State.counterBlocks,
      List.getElem?_map, List.getElem?_range hb, keystreamByte, State.off_eq]
    simp only [Option.map_some, Nat.zero_add]
    rw [show (16 * s.ctr + s.pad + t) / 16 = s.ctr + (s.pad + t) / 16 by omega,
      show (16 * s.ctr + s.pad + t) % 16 = (s.pad + t) % 16 by omega]
  · rw [if_neg h, if_neg (by simp only [State.stagedCount]; omega)]
    rfl

@[simp] theorem State.length_staged (s : State) : s.staged.length = s.stagedCount := by simp [State.staged]

/-! ### `process` -/

/-- Everything `process` can do with data in a buffer that fits the storage (R155, R159, R160, R161). -/
theorem process_eq (P : Primitive) {s : State} (hdata : s.fill ≠ s.pad) (hfit : s.fill ≤ Config.bufMax) :
    process P s =
      if callsSucceed P s.primLog.length s.blockCount then
        .done { s with
          outQ := s.outQ ++ streamXor P s.key s.biv s.off.toNat s.staged
          off := s.off + BitVec.ofNat 64 s.stagedCount
          fill := (s.off + BitVec.ofNat 64 s.stagedCount).toNat % Config.blockBytes
          primLog := s.primLog ++ s.counterBlocks }
      else
        .failed { s with primLog := s.primLog ++ s.counterBlocks.take (callsMade P s.primLog.length s.blockCount) } := by
  rw [process, if_neg hdata, if_neg (by omega), runPrimitive_eq, State.length_counterBlocks]
  by_cases h : callsSucceed P s.primLog.length s.blockCount = true
  · rw [if_pos h, if_pos h, callsMade_eq P h, List.take_of_length_le (by simp), ← transformed_eq]
    rfl
  · rw [if_neg h, if_neg h]

/-- With nothing beyond the padding, `process` changes nothing (R153). -/
theorem process_nothing (P : Primitive) {s : State} (h : s.fill = s.pad) : process P s = .done s := by
  rw [process, if_pos h]

/-! ### Stages -/

/-- Everything the DRAIN stage can do. -/
theorem drainStage_cases {record : DrainStage → Pending} {finish : State → State} {s t : State}
    (h : drainStage record finish s = .next t) :
    (s.outQ = [] ∧ t = finish s) ∨ (s.outQ ≠ [] ∧ t = { s with cur := some (record .drain) }) := by
  rw [drainStage] at h
  split at h <;> cases h
  · exact .inl ⟨‹_›, rfl⟩
  · exact .inr ⟨‹_›, rfl⟩

/-- Everything the PROC stage can do. -/
theorem procStage_cases {P : Primitive} {record : DrainStage → Pending} {finish : State → State} {s t : State}
    (h : procStage P record finish s = .next t) :
    (¬ s.pad < s.fill ∧ drainStage record finish s = .next t) ∨
    (s.pad < s.fill ∧ s.outQ ≠ [] ∧ t = { s with cur := some (record .proc) }) ∨
    (s.pad < s.fill ∧ s.outQ = [] ∧
      ((∃ u, process P s = .done u ∧ drainStage record finish u = .next t) ∨
       (∃ u, process P s = .failed u ∧ t = u.enterFault))) := by
  rw [procStage] at h
  split at h
  · split at h
    · split at h
      · exact .inr (.inr ⟨‹_›, ‹_›, .inl ⟨_, ‹_›, h⟩⟩)
      · cases h; exact .inr (.inr ⟨‹_›, ‹_›, .inr ⟨_, ‹_›, rfl⟩⟩)
      · cases h
    · cases h; exact .inr (.inl ⟨‹_›, ‹_›, rfl⟩)
  · exact .inl ⟨‹_›, h⟩

end Sys2Proof.Machine
end

