-- ==== Sys2Proof/Laws/Step.lean ====
section
/-!
SUPPORT. What a command runs from, and everything one step of an agent can do: statements about `step` split into these
cases instead of unfolding it.
-/

namespace Sys2Proof.Machine

/-! ### The record a command runs from -/

theorem State.recordFor_idle {s : State} (h : s.cur = none) (i : Instr) : s.recordFor i = some (s.sample i) := by
  rw [State.recordFor, h]

theorem State.recordFor_pending {s : State} {p : Pending} {i : Instr} (h : s.cur = some p) (hi : p.instr = some i) :
    s.recordFor i = some p := by
  rw [State.recordFor, h]
  exact if_pos hi

/-- A sampled record is the sampled command's. -/
@[simp] theorem State.sample_instr (s : State) (i : Instr) : (s.sample i).instr = some i := by
  cases i <;> rfl

/-- A record of command `i` that is in the state is the one `i` runs from; it came from `i`. -/
theorem State.recordFor_instr {s : State} {i : Instr} {p : Pending} (h : s.recordFor i = some p) :
    p.instr = some i := by
  rw [State.recordFor] at h
  split at h
  · cases h; simp
  · split at h <;> cases h; assumption

/-! ### The engine -/

/-- Everything an engine step can do. -/
theorem engineStep_cases {s t : State} (h : engineStep s = .next t) :
    (s.cur = none ∧ t = s) ∨
    (∃ p, s.cur = some p ∧ s.hold = true ∧ t = s) ∨
    (∃ p i, s.cur = some p ∧ s.hold = false ∧ p.instr = some i ∧ exec i s = .next t) ∨
    (s.cur = some .illegal ∧ t = s.fail .illegalCommand) := by
  rw [engineStep] at h
  split at h
  · cases h; exact .inl ⟨‹_›, rfl⟩
  · rename_i p hp
    split at h
    · cases h; exact .inr (.inl ⟨p, hp, ‹_›, rfl⟩)
    · rename_i hh
      split at h
      · rename_i i hi
        exact .inr (.inr (.inl ⟨p, i, hp, by simpa using hh, hi, h⟩))
      · rename_i hi
        cases p <;> first | (simp [Pending.instr] at hi; done) | skip
        cases h
        exact .inr (.inr (.inr ⟨hp, rfl⟩))

/-! ### The host -/

/-- Everything a host step can do when it answers a next state: a turn of `wait`, a read, a write other than to `CMD`, an
accepted or a stalled `CMD` write. -/
theorem hostStep_cases {s t : State} (h : hostStep s = .next t) :
    t = s.hostRead 0x08 ∨ t = (s.hostRead 0x08).popHost ∨
    (∃ o, t = (s.hostRead o).popHost) ∨
    (∃ o v, o ≠ Reg.cmd.offset ∧ t = (busWrite s o v).popHost) ∨
    (∃ v, s.nextHostOp = .access (.write Reg.cmd.offset 32 v) ∧ s.busy = false ∧ t = (s.accept v).popHost) ∨
    (s.busy = true ∧ t = s) := by
  rw [hostStep] at h
  split at h
  · split at h <;> cases h
    · exact .inl rfl
    · exact .inr (.inl rfl)
  · split at h <;> cases h
    exact .inr (.inr (.inl ⟨_, rfl⟩))
  · rename_i o bits v hop
    split at h
    · rename_i htr
      split at h
      · rename_i ho
        split at h <;> cases h
        · exact .inr (.inr (.inr (.inr (.inr ⟨‹_›, rfl⟩))))
        · rename_i hb
          simp only [isTransaction, decide_eq_true_eq] at htr
          subst ho
          rw [htr.1] at hop
          exact .inr (.inr (.inr (.inr (.inl ⟨v, hop, by simpa using hb, rfl⟩))))
      · cases h
        exact .inr (.inr (.inr (.inl ⟨o, v, ‹_›, rfl⟩)))
    · cases h

/-- What a write to a register other than `CMD` leaves alone: the engine's state and everything outside the window. -/
theorem busWrite_frame (s : State) (o : BitVec 8) (v : Word) :
    busWrite s o v =
      { s with
        din := (busWrite s o v).din, ioffLo := (busWrite s o v).ioffLo, ioffHi := (busWrite s o v).ioffHi
        bufreq := (busWrite s o v).bufreq, keyReg := (busWrite s o v).keyReg, ivReg := (busWrite s o v).ivReg
        tiv := (busWrite s o v).tiv, tcntLo := (busWrite s o v).tcntLo, tcntHi := (busWrite s o v).tcntHi } := by
  unfold busWrite
  split
  · rename_i r _
    cases r <;> rfl
  · rfl

/-! ### The step -/

/-- Everything a step can do: one step of the agent that moves, on the state with the choice used up. -/
theorem step_cases {s t : State} (h : step s = .next t) :
    (s.nextAgent = .host ∧ hostStep s.popAgent = .next t) ∨
    (s.nextAgent = .engine ∧ engineStep s.popAgent = .next t) ∨
    (s.nextAgent = .sink ∧ t = sinkStep s.popAgent) ∨
    (s.nextAgent = .reset ∧ t = s.popAgent.resetBlock) := by
  rw [step] at h
  unfold agentStep at h
  split at h
  · exact .inl ⟨‹_›, h⟩
  · exact .inr (.inl ⟨‹_›, h⟩)
  · cases h; exact .inr (.inr (.inl ⟨‹_›, rfl⟩))
  · cases h; exact .inr (.inr (.inr ⟨‹_›, rfl⟩))

/-- `run` is the host interface's run of the machine. -/
theorem run_eq_core_run (k : Nat) (s : State) : run k s = Sys2Proof.core.run k s := by
  induction k generalizing s with
  | zero => rfl
  | succ k ih =>
    have hs : Sys2Proof.core.step s = step s := rfl
    refine Eq.trans ?_ (Host.Core.run.eq_2 Sys2Proof.core s k).symm
    rw [hs, run]
    cases step s with
    | next t => exact ih t
    | fault f => rfl
    | refused r => rfl

end Sys2Proof.Machine
end

