-- ==== Sys2Proof/Machine/HostProgram.lean ====
section
/-!
DEFINITION. The host's side in the notation of 30_encoding.md R110 and R111: statements and pseudo-instructions as bus
operations, and the host's duties towards the block (70_reset_and_hazards.md R273, R284). The block sees only the
operations; nothing else of the model uses this file.
-/

namespace Sys2Proof.Machine

/-- `wr REG, imm32` (R110). -/
def writeOp (r : Reg) (v : Word) : HostOp := .access (.write r.offset 32 v)

/-- `rd REG` (R110). -/
def readOp (r : Reg) : HostOp := .access (.read r.offset 32)

/-- A command pseudo-instruction: `wr CMD` with the command's word (R111). -/
def issue (i : Instr) : HostOp := writeOp .cmd (encode i)

/-- Four bytes as a register, the first in bits 31:24; missing bytes are 0 (R76, R111). -/
def packWord (bytes : List Byte) : Word :=
  bytes.getD 0 0 ++ bytes.getD 1 0 ++ bytes.getD 2 0 ++ bytes.getD 3 0

/-- Statements and pseudo-instructions (R110, R111). -/
inductive Statement where
  | wr (r : Reg) (v : Word)
  | rd (r : Reg)
  | wait
  | nop
  | init (kl : BitVec 2) (ivb : BitVec 5)
  | write (n : Nat)
  | wb (bytes : List Byte)
  | flush
  | close
  | derive
  | ld128Iv (v : Block)
  | ld128Tiv (v : Block)
  | ldkey (bytes : List Byte)
  | ld64Ioff (v : DWord)
  | ld64Tcnt (v : DWord)
  | cmdw (s : Statement)
deriving DecidableEq, Repr

/-- The groups of at most four bytes of a byte sequence, in order (R284). -/
def chunks4 : List Byte → List (List Byte)
  | a :: b :: c :: d :: rest => [a, b, c, d] :: chunks4 rest
  | [] => []
  | rest => [rest]

/-- `wr KEY0`, `wr KEY1`, ... with consecutive groups of key bytes (R111). -/
def keyWrites (bytes : List Byte) : List HostOp :=
  List.zipWith (fun i g => writeOp (.key i) (packWord g)) [0, 1, 2, 3, 4, 5, 6, 7] (chunks4 bytes)

/-- The bus operations of a statement (R110, R111). -/
def Statement.expand : Statement → List HostOp
  | .wr r v => [writeOp r v]
  | .rd r => [readOp r]
  | .wait => [.wait]
  | .nop => [issue .nop]
  | .init kl ivb => [issue (.init kl ivb)]
  | .write n => [issue (.write n)]
  | .wb bytes => [writeOp .din (packWord bytes), issue (.write bytes.length)]
  | .flush => [issue .flush]
  | .close => [issue .close]
  | .derive => [issue .derive]
  | .ld128Iv v => [0, 1, 2, 3].map fun i : Fin 4 => writeOp (.iv i) (blockWord v i)
  | .ld128Tiv v => [0, 1, 2, 3].map fun i : Fin 4 => writeOp (.tiv i) (blockWord v i)
  | .ldkey bytes => keyWrites bytes
  | .ld64Ioff v =>
    [writeOp .ioffHi (v.extractLsb 63 32), writeOp .ioffLo (v.extractLsb 31 0)]
  | .ld64Tcnt v =>
    [writeOp .tcntHi (v.extractLsb 63 32), writeOp .tcntLo (v.extractLsb 31 0)]
  | .cmdw s => s.expand ++ [.wait]

/-- A program's bus operations. -/
def expandAll (program : List Statement) : List HostOp := program.flatMap Statement.expand

/-- Steps 3 and 4 of the boot order (R273): the operand registers, then INIT, then wait. -/
def bootProgram (kl : BitVec 2) (key : List Byte) (iv : Block) (ioff : DWord) (bufreq : Word) : List Statement :=
  [.ldkey key, .ld128Iv iv, .ld64Ioff ioff, .wr .bufreq bufreq, .cmdw (.init kl 16), .rd .status]

/-- Step 5 of the boot order: the data in groups of at most four bytes, each followed by a wait (R273, R284). -/
def dataProgram (data : List Byte) : List Statement := (chunks4 data).map fun g => .cmdw (.wb g)

/-- The end of a stream: FLUSH, then CLOSE (R273, R284). -/
def closeProgram : List Statement := [.cmdw .flush, .rd .status, .cmdw .close, .rd .status]

end Sys2Proof.Machine
end

