-- ==== Sys2Proof/Tests/Slice0.lean ====
section
/-!
SUPPORT. Tests. The expected values are those of spec/95_test_vectors.md (each test names its vector), computed there
from the rules and not by this model; command words are written out from 30_encoding.md. And, for every statement with
hypotheses, a witness: concrete values that meet them.
-/

namespace Sys2Proof.Tests

open Sys2Proof Sys2Proof.Machine

/-! ### Helpers -/

/-- The next state, if the outcome is one. -/
def next? : Host.Outcome State Fault Refusal → Option State
  | .next t => some t
  | .fault _ => none
  | .refused _ => none

/-- The outcome is a next state with the property. -/
def answers (o : Host.Outcome State Fault Refusal) (p : State → Bool) : Bool := (next? o).any p

/-- `E_id` of the test vectors; the invocations in `failing`, numbered from 0, fail. -/
def identityPrimitive (failing : List Nat) : Primitive :=
  { E := fun _ cb => cb, fails := fun n => failing.contains n }

/-- The base IV `IVX` of the test vectors. -/
def ivx : Block := 0x000102030405060708090A0B0C0D0E0F

/-- An open instance with capacity 16 and a 16-byte key of zeros. -/
def openAt (biv : Block) (off : DWord) (fill : Nat) (bytes : Memory) : State :=
  { State.reset with
    phase := .opened, key := List.replicate 16 0, biv := biv, cap := 16, off := off, fill := fill, bufIn := bytes }

/-! ### WellFormed -/

theorem smoke_write_of_no_bytes_refused : (Instr.write 0).wellFormed = false := by decide
theorem smoke_write_of_five_bytes_refused : (Instr.write 5).wellFormed = false := by decide
theorem smoke_write_of_four_bytes_allowed : (Instr.write 4).wellFormed = true := by decide

/-! ### Decoding -/

theorem test_decode_nop : decode 0b00000000_000000000000000000000000#32 = .ok .nop := rfl
theorem test_decode_init : decode 0b00000001_00000000000_10000_000000_10#32 = .ok (.init 2 16) := rfl
theorem test_decode_init_widths : decode 0b00000001_00000000000_01100_000000_11#32 = .ok (.init 3 12) := rfl
theorem test_decode_write : decode 0b00000010_0000000000000000000000_10#32 = .ok (.write 3) := rfl
theorem test_decode_flush : decode 0b00000011_000000000000000000000000#32 = .ok .flush := rfl
theorem test_decode_close : decode 0b00000100_000000000000000000000000#32 = .ok .close := rfl
theorem test_decode_derive : decode 0b00000101_000000000000000000000000#32 = .ok .derive := rfl

/-- V-ILLEGAL: these words name no command. -/
theorem test_decode_illegal :
    ([0x00000001, 0x00800000, 0x01002000, 0x01001004, 0x01001080, 0x02000004, 0x02800000, 0x03000001, 0x04000100,
      0x05000001, 0x06000000, 0x7F000000, 0xFF000000, 0xFFFFFFFF] : List Nat).all
      (fun w => (decodeTableWord 32 w).isNone) = true := by decide

/-- R107: these decode to INIT. -/
theorem test_decode_unusual_init :
    decodeTableWord 32 0x01001F03 = some (.init 3 31) ∧ decodeTableWord 32 0x01000003 = some (.init 3 0) ∧
      decodeTableWord 32 0x01001F00 = some (.init 0 31) ∧ decodeTableWord 32 0x01000000 =
        some (.init 0 0) := by decide

/-! ### The adder -/

/-- AD9. -/
theorem test_adder_ad9 :
    deriveBlock ivx 0x0102030405060708 = 0x0001020304050607090B0D0F11131517 := by decide
/-- AD16. -/
theorem test_adder_ad16 :
    deriveBlock 0x12345678123456781234567812345678 0xFEDCBA9876543210 =
      0x12345678123456791111111088888888 := by decide
/-- AD6. -/
theorem test_adder_wraps_ad6 : deriveBlock 0xFFFFFFFFFFFFFFFFFFFFFFFFFFFFFFFF 0xFFFFFFFFFFFFFFFF =
  0x0000000000000000FFFFFFFFFFFFFFFE := by decide
/-- AD24: a width between one and eight bytes. -/
theorem test_adder_narrow_ad24 :
    deriveIV [0x00, 0x00, 0x00, 0x00, 0x00, 0xFF] 0x1000000000001 = [0x00, 0x00, 0x00, 0x00, 0x01, 0x00] := by decide
/-- AD25, byte by byte: the carry passes the eight counter bytes. -/
theorem test_adder_serial_ad25 :
    deriveIVSerial (0x00#8 :: List.replicate 16 0xFF#8) 1 = 0x01#8 :: List.replicate 16 0x00#8 := by decide

/-! ### Commands, one step each -/

/-- V-NOP: after a failed WRITE in CLOSED, a NOP takes `STATUS` from 0x202 to 0x2. -/
theorem test_nop_clears_err :
    let s := { State.reset with phase := .closed, err := .streamClosed }
    s.statusWord = 0x202 ∧ (next? (exec .nop s)).map State.statusWord = some 0x2 := by decide

/-- IN19, with the key bytes that `KL = 2` takes. -/
theorem test_init_in19 :
    answers (exec (.init 2 16)
      { State.reset with bufreq := 4097, ioffLo := 5, keyReg := Vector.replicate 8 0x01020304 }) fun t =>
      decide (t.statusWord = 0x1 ∧ t.cap = 4096 ∧ t.fill = 5 ∧ t.pad = 5 ∧ t.ctr = 0 ∧
        t.key = (List.replicate 8 [0x01, 0x02, 0x03, 0x04]).flatten) := by decide

/-- IN26: a failed INIT clears the staging registers too. -/
theorem test_init_in26 :
    answers (exec (.init 0 16)
      { State.reset with bufreq := 15, keyReg := Vector.replicate 8 7, ivReg := Vector.replicate 4 1 }) fun t =>
      decide (t.statusWord = 0x700 ∧ t.keyReg = Vector.replicate 8 0 ∧ t.ivReg = Vector.replicate 4 0) := by decide

/-- WR1. -/
theorem test_write_wr1 :
    answers (writeCommand (identityPrimitive []) 2 { openAt 0 0 0 [] with din := 0x11220000 }) fun t =>
      decide (t.statusWord = 0x5 ∧ t.fill = 2 ∧ t.bufIn = [(0, 0x11), (1, 0x22)] ∧ t.primLog = []) := by decide

/-- WR4, its last WRITE, with zero data bytes before it: it fills the buffer, processes, and appends the rest from index
0. -/
theorem test_write_wr4 :
    answers (writeCommand (identityPrimitive []) 4 { openAt ivx 0 14 [] with din := 0x0708090A }) fun t =>
      decide (t.statusWord = 0x9 ∧ t.fill = 2 ∧ t.off = 0x10 ∧
        t.outQ = [0x00, 0x01, 0x02, 0x03, 0x04, 0x05, 0x06, 0x07, 0x08, 0x09, 0x0A, 0x0B, 0x0C, 0x0D, 0x09, 0x07] ∧
        t.primLog = [ivx] ∧ t.readIn = [0x09, 0x0A]) := by decide

/-- OL4: FLUSH at the end of the stream. -/
theorem test_flush_ol4 :
    answers (flushCommand (identityPrimitive []) (openAt 0 0xFFFFFFFFFFFFFFFE 15 [(14, 0x5A)])) fun t =>
      decide (t.outQ = [0xA5] ∧ t.off = 0xFFFFFFFFFFFFFFFF ∧ t.pad = 15 ∧
        t.primLog = [0x00000000000000000FFFFFFFFFFFFFFF] ∧ t.cur = some (.flush .drain)) := by decide

/-- FA3: a FLUSH whose invocation fails. -/
theorem test_flush_fa3 :
    answers (flushCommand (identityPrimitive [1]) { openAt ivx 0x10 4 [(0, 0xC0)] with primLog := [ivx] }) fun t =>
      decide (t.statusWord = 0x303 ∧ t.off = 0x10 ∧ t.fill = 4 ∧ t.key = [] ∧ t.biv = 0 ∧ t.bufIn = [] ∧
        t.outQ = [] ∧ t.primLog.length = 2) := by decide

/-- CL6: CLOSE with the sink stalled. -/
theorem test_close_cl6 :
    answers (closeCommand (identityPrimitive []) (openAt ivx 0 3 [(0, 1), (1, 2), (2, 3)])) fun t =>
      decide (t.statusWord = 0x39 ∧ t.outQ = [0x01, 0x03, 0x01] ∧ t.off = 3) := by decide

/-- CL1, the completing step: registers and latches after it. -/
theorem test_close_cl1 :
    answers (closeCommand (identityPrimitive [])
      { openAt ivx 8 8 [(5, 0x10)] with cur := some (.close .drain) }) fun t =>
      decide (t.statusWord = 0x2 ∧ t.off = 8 ∧ t.pad = 8 ∧ t.fill = 8 ∧ t.cap = 16 ∧ t.key = [] ∧
        t.biv = 0) := by decide

/-- V-DERIVE, AD7 at register level. -/
theorem test_derive_ad7 :
    (next? (exec .derive { State.reset with tiv := #v[0, 0, 0xFFFFFFFF, 0xFFFFFFFF], tcntLo := 1 })).map
      (fun t => [busRead t 0x90, busRead t 0x94, busRead t 0x98, busRead t 0x9C]) =
      some [0x00000000, 0x00000001, 0x00000000, 0x00000000] := by decide

/-- V-ILLEGAL: `STATUS = 0x400`. -/
theorem test_illegal :
    (next? (step (State.reset.withFetchWord 32 0x05000001))).map State.statusWord = some 0x400 := by decide

/-! ### Other agents -/

/-- HD3 and HD6: `STATUS` while a WRITE is held, and once the sink has taken the last byte. -/
theorem test_hold_hd3_hd6 :
    let s := { openAt ivx 0x10 16 [] with outQ := [0x00], cur := some (.write 4 [] .run) }
    s.statusWord = 0x39 ∧ (sinkStep s).statusWord = 0x15 := by decide

/-- A host access that is not 32 bits wide is no transaction (R71). -/
theorem test_narrow_access_refused :
    next? (step { State.reset with sched := [.host], hostQ := [.access (.read 0x08 16)] }) = none := by decide

/-- P1, row 1. -/
theorem test_read_id :
    (next? (step { State.reset with sched := [.host], hostQ := Statement.expand (.rd .id) })).map State.rdata =
      some 0x4B435452 := by decide

/-- P2 and P5: the bus accesses of a pseudo-instruction. -/
theorem test_expand_wb :
    Statement.expand (.wb [0xC4]) =
      [.access (.write 0x0C 32 0xC4000000), .access (.write 0x04 32 0x02000000)] := by decide

/-! ### Witnesses: states that meet the hypotheses of the statements -/

/-- A state of an open instance has the invariant when its numbers are in range. -/
theorem openAt_inv (biv : Block) (off : DWord) (fill : Nat) (bytes : Memory) (outQ : List Byte) (cur : Option Pending)
    (hostQ : List HostOp) (sched : List Agent) (h1 : off.toNat % 16 ≤ fill ∧ fill ≤ 16)
    (h2 : off.toNat + (fill - off.toNat % 16) ≤ Config.offLimit) (h3 : outQ.length ≤ 16) (h4 : bytes.wf = true)
    (h5 : ¬ ({ openAt biv off fill bytes with cur := cur }).writeRunning → fill < 16)
    (h6 : ({ openAt biv off fill bytes with cur := cur }).pendingOk) :
    ({ openAt biv off fill bytes with outQ := outQ, cur := cur, hostQ := hostQ, sched := sched }).Inv where
  capRange := fun _ => (by decide : 16 ≤ 16 ∧ 16 ≤ Config.bufMax ∧ 16 % 16 = 0)
  fillRange := fun _ => h1
  uninitZero := fun h => nomatch h
  roomLeft := fun _ => h5
  outBound := h3
  outEmpty := fun h => absurd rfl h
  keyOpen := fun _ => .inl rfl
  secretsCleared := fun h => absurd rfl h
  offsetBound := h2
  bufferWf := h4
  pendingWf := h6

/-- An open instance with nothing staged. -/
def open0 : State := openAt ivx 0 0 []

theorem open0_inv : open0.Inv :=
  openAt_inv ivx 0 0 [] [] none [] [] (by decide) (by decide) (by decide) rfl (fun _ => by decide) trivial

theorem witness_DecodeEncodeRoundTrip : (Instr.write 1).wellFormed = true ∧ (Instr.write 4).wellFormed = true ∧
    (Instr.init 3 31).wellFormed = true := by decide

theorem witness_EncodeDecodeRoundTrip : decode 0x02000003 = .ok (.write 4) ∧ decode 0x01001F03 = .ok (.init 3 31) :=
  ⟨rfl, rfl⟩

theorem witness_DecodeFollowsTheOpcodeMap :
    decode 0x01001F03 = .ok (.init 3 31) ∧ decode 0x02000000 = .ok (.write 1) ∧
      ∃ r ∈ opcodeRows, r.matchesWord 0x01001F03 = true :=
  ⟨rfl, rfl, by decide⟩

/-- One word for each way to be illegal, at the ends of the fields. -/
theorem witness_IllegalWordsOnlySetErr :
    6 ≤ (BitVec.extractLsb 31 24 (0x06000000 : Word)).toNat ∧ 6 ≤ (BitVec.extractLsb 31 24 (0xFF000000 : Word)).toNat ∧
    ((BitVec.extractLsb 31 24 (0x00000001 : Word)).toNat ∈ [0, 3, 4, 5] ∧
      BitVec.extractLsb 23 0 (0x00000001 : Word) ≠ 0) ∧
    ((BitVec.extractLsb 31 24 (0x05800000 : Word)).toNat ∈ [0, 3, 4, 5] ∧
      BitVec.extractLsb 23 0 (0x05800000 : Word) ≠ 0) ∧
    ((BitVec.extractLsb 31 24 (0x01002000 : Word)).toNat = 1 ∧ BitVec.extractLsb 23 13 (0x01002000 : Word) ≠ 0) ∧
    ((BitVec.extractLsb 31 24 (0x01001080 : Word)).toNat = 1 ∧ BitVec.extractLsb 7 2 (0x01001080 : Word) ≠ 0) ∧
    ((BitVec.extractLsb 31 24 (0x02000004 : Word)).toNat = 2 ∧ BitVec.extractLsb 23 2 (0x02000004 : Word) ≠ 0) ∧
    State.reset.cur = none := by decide

theorem witness_BadWidthsDecodeButFail :
    ((3 : BitVec 2) = 3 ∨ (16 : BitVec 5) ≠ 16) ∧ ((0 : BitVec 2) = 3 ∨ (15 : BitVec 5) ≠ 16) ∧
      State.reset.cur = none ∧ State.reset.phase ≠ .opened := by decide

/-- A sum just below `2^8`, and AD19's wrap. -/
theorem witness_AdderWrapsAtItsWidth :
    be [0xFE] + (1 : DWord).toNat < 2 ^ (8 * ([0xFE] : List Byte).length) ∧
      2 ^ (8 * ([0xFF] : List Byte).length) ≤ be [0xFF] + (1 : DWord).toNat := by decide

theorem witness_NarrowIVIgnoresHighCounterBytes : (List.replicate 7 (0xFF : Byte)).length < 8 := by decide

theorem witness_CounterStepsCompose : (0xFFFFFFFFFFFFFFFE : DWord).toNat + (1 : DWord).toNat < 2 ^ 64 := by decide

theorem witness_DeriveWritesTheSum :
    State.reset.cur = none ∧ ({ open0 with cur := some (.derive 0 1) }).cur = some (.derive 0 1) := by decide

theorem witness_NopOnlyClearsErr :
    State.reset.cur = none ∧ ({ open0 with cur := some .nop }).cur = some .nop := by decide

/-- A state for each of INIT's outcomes: open already, a bad width, a bad size, and success; and a pending record whose
operands differ from the registers. -/
theorem witness_InitResult :
    (open0.cur = none ∧ open0.phase = .opened) ∧ (State.reset.cur = none ∧ State.reset.phase ≠ .opened) ∧
    ¬ ((0 : BitVec 2) = 3 ∨ (16 : BitVec 5) ≠ 16) ∧
    State.reset.bufreq.toNat - State.reset.bufreq.toNat % 16 < 16 ∧
    ¬ ((4097 : Word).toNat - (4097 : Word).toNat % 16 < 16 ∨
      65536 < (4097 : Word).toNat - (4097 : Word).toNat % 16) ∧
    ({ State.reset with cur := some (.init 2 16 (List.replicate 32 1) ivx 5 16) }).cur =
      some (.init 2 16 (List.replicate 32 1) ivx 5 16) := by decide

/-- The sizes at both ends of the legal range, and their neighbours. -/
theorem witness_InitBufferSizes :
    ∀ v ∈ [15, 16, 4097, 65551, 65552],
      let s := { State.reset with bufreq := BitVec.ofNat 32 v }
      s.cur = none ∧ s.phase ≠ .opened ∧ (0 : BitVec 2) ≠ 3 ∧ s.bufreq.toNat = v := by decide

theorem witness_InitialOffsetSetsPadding :
    let s := { State.reset with bufreq := 16, ioffHi := 0xFFFFFFFF, ioffLo := 0xFFFFFFFF }
    s.cur = none ∧ s.phase ≠ .opened ∧ (2 : BitVec 2) ≠ 3 ∧ 16 ≤ s.bufreq.toNat ∧ s.bufreq.toNat ≤ 65551 ∧
      s.ioff.toNat = 2 ^ 64 - 1 := by decide

/-- OL2, OL3, OL5. -/
theorem witness_WritePastTheLimitIsRefused :
    (let s := openAt 0 0xFFFFFFFFFFFFFFFE 14 []
     s.cur = none ∧ s.phase = .opened ∧ s.off.toNat + (s.fill - s.pad) + 1 ≤ 2 ^ 64 - 1 ∧
       answers (exec (.write 1) s) (fun t => t.cur = none)) ∧
    (let s := openAt 0 0xFFFFFFFFFFFFFFFE 15 [(14, 0x5A)]
     s.cur = none ∧ s.phase = .opened ∧ 2 ^ 64 - 1 < s.off.toNat + (s.fill - s.pad) + 1) ∧
    (let s := openAt 0 0xFFFFFFFFFFFFFFFF 15 []
     s.cur = none ∧ s.phase = .opened ∧ 2 ^ 64 - 1 < s.off.toNat + (s.fill - s.pad) + 4) := by decide

/-- The most bytes that fit without filling the buffer; the last bytes below the offset limit (OL7). -/
theorem witness_WriteAppendsItsBytes :
    (let s := openAt 0 0 11 []
     s.cur = none ∧ s.phase = .opened ∧ s.off.toNat + (s.fill - s.pad) + 4 ≤ 2 ^ 64 - 1 ∧ s.fill + 4 < s.cap ∧
       s.cap ≤ 65536 ∧ s.bufIn.wf = true) ∧
    (let s := openAt 0 0xFFFFFFFFFFFFFFFB 11 []
     s.cur = none ∧ s.phase = .opened ∧ s.off.toNat + (s.fill - s.pad) + 4 ≤ 2 ^ 64 - 1 ∧ s.fill + 4 < s.cap) := by
  decide

/-- The buffer filled by the last byte of the WRITE (HD3), and by its first. -/
theorem witness_WriteHoldsAtAFullBuffer :
    (let s := { openAt 0 0 12 [] with outQ := [0] }
     s.cur = none ∧ s.phase = .opened ∧ s.off.toNat + (s.fill - s.pad) + 4 ≤ 2 ^ 64 - 1 ∧ s.fill < s.cap ∧
       s.cap ≤ s.fill + 4 ∧ s.cap ≤ 65536 ∧ s.bufIn.wf = true ∧ s.outQ ≠ []) ∧
    (let s := { openAt 0 0 15 [] with outQ := [0] }
     s.fill < s.cap ∧ s.cap ≤ s.fill + 4 ∧ s.outQ ≠ []) := by decide

/-- The buffer filled by the only byte of a WRITE, and by the first of four (WR4 is between); a WRITE held at the full
buffer whose queue is now empty (HD6), with nothing left to append and with three bytes left. -/
theorem witness_WriteProcessesAFullBuffer :
    (let s := openAt ivx 0x10 15 [(3, 7)]
     s.Inv ∧ s.phase = .opened ∧ s.outQ = [] ∧ s.cur = none ∧ s.off.toNat + (s.fill - s.pad) + 4 ≤ 2 ^ 64 - 1 ∧
       s.cap ≤ s.fill + 1 ∧ s.cap ≤ s.fill + 4) ∧
    (∀ rem ∈ [[], [1, 2, 3]],
     let s := { openAt ivx 0x10 16 [] with cur := some (.write 4 rem .run) }
     s.Inv ∧ s.phase = .opened ∧ s.outQ = [] ∧ s.cur = some (.write 4 rem .run)) :=
  ⟨⟨openAt_inv ivx 0x10 15 [(3, 7)] [] none [] [] (by decide) (by decide) (by decide) rfl (fun _ => by decide) trivial,
    by decide⟩,
   fun rem h => ⟨openAt_inv ivx 0x10 16 [] [] (some (.write 4 rem .run)) [] [] (by decide) (by decide) (by decide) rfl
      (fun h => absurd trivial h) ⟨rfl, (by revert rem; decide), rfl, (by revert rem; decide)⟩, rfl, rfl, rfl⟩⟩

/-- A pending WRITE at its START and held in its RUN stage, each with a next state; and the loop's bounds. -/
theorem witness_WriteMakesAtMostOneProcess :
    (let s := { open0 with cur := some (.write 2 [1, 2] .start) }
     s.Inv ∧ s.cur = some (.write 2 [1, 2] .start) ∧ (next? (exec (.write 2) s)).isSome = true) ∧
    (let s := { openAt ivx 0x10 16 [] with outQ := [0], cur := some (.write 4 [] .run) }
     s.Inv ∧ s.cur = some (.write 4 [] .run) ∧ (next? (exec (.write 4) s)).isSome = true) ∧
    open0.Inv ∧ open0.phase = .opened ∧ ([1, 2, 3, 4] : List Byte).length ≤ 4 ∧
      open0.off.toNat + (open0.fill - open0.pad) + ([1, 2, 3, 4] : List Byte).length ≤ 2 ^ 64 - 1 :=
  ⟨⟨openAt_inv ivx 0 0 [] [] (some (.write 2 [1, 2] .start)) [] [] (by decide) (by decide) (by decide) rfl
      (fun _ => by decide) (by decide : 2 ≤ 4), by decide⟩,
   ⟨openAt_inv ivx 0x10 16 [] [0] (some (.write 4 [] .run)) [] [] (by decide) (by decide) (by decide) rfl
      (fun h => absurd trivial h) (by refine ⟨rfl, ?_, rfl, ?_⟩ <;> decide), by decide⟩,
   open0_inv, by decide⟩

/-- One state for each phase. -/
theorem witness_CommandsOutsideAnOpenInstanceFail :
    ∀ p ∈ [Phase.uninit, .closed, .fault], ({ State.reset with phase := p }).cur = none := by decide

/-- FA1: a faulted instance. -/
theorem witness_CloseInFaultReleases :
    let s := { State.reset with phase := .fault, cap := 16, fill := 16 }
    s.cur = none ∧ s.phase = .fault ∧ s.Inv :=
  ⟨rfl, rfl,
    { capRange := fun _ => by decide
      fillRange := fun _ => by decide
      uninitZero := fun h => nomatch h
      roomLeft := fun h => nomatch h
      outBound := by decide
      outEmpty := fun _ => rfl
      keyOpen := fun h => nomatch h
      secretsCleared := fun _ => ⟨rfl, rfl, rfl⟩
      offsetBound := by decide
      bufferWf := rfl
      pendingWf := trivial }⟩

/-- After FL1, the offset inside a block; and a FLUSH at its last step. -/
theorem witness_FlushIsIdempotent :
    (let s := openAt 0 2 2 [(0, 0x11), (1, 0x22)]
     s.cur = none ∧ s.phase = .opened ∧ s.fill = s.pad ∧ s.outQ = []) ∧
    (let s := { openAt 0 2 2 [(0, 0x11), (1, 0x22)] with cur := some (.flush .drain) }
     s.Inv ∧ s.cur = some (.flush .drain) ∧ answers (exec .flush s) (fun t => decide (t.cur = none ∧ t.err = .ok))) :=
  ⟨by decide,
    openAt_inv 0 2 2 _ [] (some (.flush .drain)) [] [] (by decide) (by decide) (by decide) rfl (fun _ => by decide)
      ⟨rfl, rfl⟩,
    by decide⟩

theorem witness_CloseWithNothingStaged :
    let s := openAt 0 2 2 [(0, 0x11), (1, 0x22)]
    s.cur = none ∧ s.phase = .opened ∧ s.fill = s.pad ∧ s.outQ = [] := by decide

/-- One staged byte behind five bytes of padding, the most that is staged when no command is pending, and commands held in
their PROC stage. -/
theorem witness_FlushAndCloseProcessStagedData :
    (∀ c ∈ [none, some (.flush .proc), some (.close .proc)],
     let s := { openAt ivx 5 6 [(5, 0x10)] with cur := c }
     s.Inv ∧ s.phase = .opened ∧ s.pad < s.fill ∧ s.outQ = [] ∧ s.cur = c) ∧
    (let s := openAt ivx 0 15 []
     s.Inv ∧ s.phase = .opened ∧ s.pad < s.fill ∧ s.outQ = [] ∧ s.cur = none) :=
  ⟨fun c h => ⟨openAt_inv ivx 5 6 [(5, 0x10)] [] c [] [] (by decide) (by decide) (by decide) rfl
      (fun _ => (by decide : 6 < 16)) (by
      simp only [List.mem_cons, List.not_mem_nil, or_false] at h
      rcases h with rfl | rfl | rfl <;> trivial),
      rfl, (by decide : 5 < 6), rfl, rfl⟩,
   openAt_inv ivx 0 15 [] [] none [] [] (by decide) (by decide) (by decide) rfl (fun _ => by decide) trivial,
   by decide⟩

/-- With a byte staged, and with none. -/
theorem witness_FlushAndCloseWaitForTheSink :
    (let s := { openAt ivx 5 6 [] with outQ := [0] }
     s.cur = none ∧ s.phase = .opened ∧ s.outQ ≠ [] ∧ s.pad < s.fill) ∧
    (let s := { openAt ivx 5 5 [] with outQ := [0] }
     s.cur = none ∧ s.phase = .opened ∧ s.outQ ≠ [] ∧ s.fill ≤ s.pad) := by decide

/-- CL6: three bytes to take. With an empty queue the engine's step is the only one. -/
theorem witness_DrainCompletesOnceTheSinkHasTaken :
    (let s := { openAt ivx 3 3 [] with
        outQ := [1, 3, 1], cur := some (.close .drain), sched := [.sink, .sink, .sink, .engine, .host] }
     s.sched = List.replicate s.outQ.length .sink ++ .engine :: [.host] ∧ s.cur = some (.close .drain)) ∧
    (let s := { openAt ivx 3 3 [] with cur := some (.flush .drain), sched := [.engine] }
     s.sched = List.replicate s.outQ.length .sink ++ .engine :: [] ∧ s.cur = some (.flush .drain)) := by decide

theorem witness_StepRunsTheDecodedCommand :
    decode 0x02000000 = .ok (.write 1) ∧
    (let s := { openAt ivx 0 3 [] with cur := some (.flush .start), sched := [.engine] }
     s.nextAgent = .engine ∧ s.cur = some (.flush .start) ∧ (Pending.flush .start).instr = some .flush ∧
       s.hold = false) :=
  ⟨rfl, by decide⟩

theorem witness_AcceptanceThenEngineStep : open0.cur = none ∧ (Instr.write 1).wellFormed = true := by decide

theorem witness_CmdWriteIsAccepted :
    let s := { open0 with hostQ := [issue .flush] }
    s.nextHostOp = .access (.write 0x04 32 0x03000000) ∧ s.cur = none ∧
      (decode 0x03000000).toOption = some .flush := by
  decide

theorem witness_CmdWriteStallsWhileBusy :
    (let s := { open0 with hostQ := [issue .flush], cur := some .nop }
     s.nextHostOp = .access (.write 0x04 32 0x03000000) ∧ s.cur ≠ none) ∧
    (let s := { open0 with hostQ := [issue .flush] }
     s.nextHostOp = .access (.write 0x04 32 0x03000000) ∧ s.cur = none) ∧
    (let s := { open0 with hostQ := [writeOp .din 1], cur := some .nop }
     (0x0C : BitVec 8).toNat % 4 = 0 ∧ (0x0C : BitVec 8) ≠ 0x04 ∧
       s.nextHostOp = .access (.write 0x0C 32 1)) := by decide

/-- HD4 (a write to `DIN`, and one to `KEY7`, with a WRITE pending); writes to `BUFREQ` and to `IV3` with an INIT
pending. -/
theorem witness_OperandWritesDoNotReachThePendingCommand :
    (let s := { openAt ivx 0x10 16 [] with outQ := [0], cur := some (.write 4 [] .run) }
     s.cur = some (.write 4 [] .run) ∧ Reg.din.access = .rw ∧ (Reg.key 7).access = .wo ∧
       ∀ kl ivb key32 iv16 ioff bufreq, Pending.write 4 [] .run ≠ .init kl ivb key32 iv16 ioff bufreq) ∧
    (let s := { State.reset with cur := some (.init 0 16 (List.replicate 32 0) ivx 0 16) }
     s.cur = some (.init 0 16 (List.replicate 32 0) ivx 0 16) ∧ Reg.bufreq.access ≠ .wo ∧ (Reg.iv 3).access = .wo) :=
  ⟨⟨rfl, rfl, rfl, fun _ _ _ _ _ _ h => nomatch h⟩, rfl, by decide, rfl⟩

/-- HD3: a held WRITE; and one that is no longer held (HD6). -/
theorem witness_HoldMeansTheCommandWaits :
    (let s := { openAt ivx 0x10 16 [] with outQ := [0], cur := some (.write 4 [] .run) }
     s.Inv ∧ s.cur = some (.write 4 [] .run) ∧ (Pending.write 4 [] .run).instr = some (.write 4) ∧ s.hold = true) ∧
    (let s := { openAt ivx 0x10 16 [] with cur := some (.write 4 [] .run) }
     s.Inv ∧ s.cur = some (.write 4 [] .run) ∧ (Pending.write 4 [] .run).instr = some (.write 4) ∧ s.hold = false) :=
  ⟨⟨openAt_inv ivx 0x10 16 [] [0] (some (.write 4 [] .run)) [] [] (by decide) (by decide) (by decide) rfl
      (fun h => absurd trivial h) (by refine ⟨rfl, ?_, rfl, ?_⟩ <;> decide), by decide⟩,
   ⟨openAt_inv ivx 0x10 16 [] [] (some (.write 4 [] .run)) [] [] (by decide) (by decide) (by decide) rfl
      (fun h => absurd trivial h) (by refine ⟨rfl, ?_, rfl, ?_⟩ <;> decide), by decide⟩⟩

theorem witness_SinkTakesTheFrontByte :
    ({ open0 with outQ := [1, 2] }).outQ = 1 :: [2] ∧ open0.outQ = [] := by decide

theorem witness_ResetClearsTheBlock : ({ open0 with sched := [.reset] }).nextAgent = .reset := by decide

/-- A register of each access type, the last of each staging group, and another register. -/
theorem witness_RegisterAccessTypes :
    (Reg.div 3).access = .ro ∧ Reg.cmd.access = .wo ∧ (Reg.key 7).access = .wo ∧
      (Reg.iv 3).access = .wo ∧ (Reg.tiv 3).access = .rw ∧ Reg.tiv 2 ≠ Reg.tiv 3 := by decide

/-- The reserved offsets at the ends of their ranges. -/
theorem witness_ReservedSpaceReadsZero :
    ∀ o ∈ ([0x3C, 0x88, 0x8C, 0xA0, 0xFC] : List (BitVec 8)),
      o = 0x3C ∨ o = 0x88 ∨ o = 0x8C ∨ (0xA0 ≤ o.toNat ∧ o.toNat % 4 = 0) := by decide

theorem witness_CountRegisters : (openAt ivx 0 15 []).Inv :=
  openAt_inv ivx 0 15 [] [] none [] [] (by decide) (by decide) (by decide) rfl (fun _ => by decide) trivial

theorem witness_HostReadsAndNonTransactions :
    (let s := { open0 with hostQ := [.access (.read 0xFC 32)] }
     s.nextHostOp = .access (.read 0xFC 32) ∧ (32 = 32 ∧ (0xFC : BitVec 8).toNat % 4 = 0)) ∧
    (let s := { open0 with hostQ := [.access (.read 0xFD 32)] }
     s.nextHostOp = .access (.read 0xFD 32) ∧ ¬ (32 = 32 ∧ (0xFD : BitVec 8).toNat % 4 = 0)) ∧
    (let s := { open0 with hostQ := [.access (.write 0x0C 8 1)] }
     s.nextHostOp = .access (.write 0x0C 8 1) ∧ ¬ ((8 : Nat) = 32 ∧ (0x0C : BitVec 8).toNat % 4 = 0)) := by decide

theorem witness_StepKeepsTheInvariant :
    let s := { openAt ivx 5 6 [] with outQ := [7], sched := [.sink] }
    s.Inv ∧ (next? (step s)).isSome = true :=
  ⟨openAt_inv ivx 5 6 [] [7] none [] [.sink] (by decide) (by decide) (by decide) rfl (fun _ => by decide) trivial,
    by decide⟩

theorem witness_NoAccessOutOfBounds :
    ({ openAt ivx 0x10 16 [] with outQ := [0], cur := some (.write 4 [] .run) }).Inv :=
  openAt_inv ivx 0x10 16 [] [0] (some (.write 4 [] .run)) [] [] (by decide) (by decide) (by decide) rfl
    (fun h => absurd trivial h) (by refine ⟨rfl, ?_, rfl, ?_⟩ <;> decide)

/-- From reset to an open instance: the host writes `BUFREQ` and INIT, the engine runs it. -/
theorem witness_ReachableStatesSatisfyTheInvariants :
    answers (run 3 { State.reset with
        hostQ := [writeOp .bufreq 16, issue (.init 0 16)], sched := [.host, .host, .engine] }) fun t =>
      decide (t.phase = .opened ∧ t.cur = none ∧ t.cap = 16) := by decide

/-- INIT, CLOSE and the reset input change the phase. (A FAULT entry waits for a free draw.) -/
theorem witness_OnlyTheseChangeThePhase :
    answers (step ({ State.reset with bufreq := 16 }.withFetchWord 32 0x01001000)) (fun t => t.phase = .opened) ∧
    answers (step (open0.withFetchWord 32 0x04000000)) (fun t => t.phase = .closed) ∧
    answers (step { open0 with sched := [.reset] }) (fun t => t.phase = .uninit) ∧ open0.phase = .opened ∧
    State.reset.phase = .uninit := by decide

theorem witness_OpenInstanceKeepsItsKey :
    answers (step { openAt ivx 0 3 [] with outQ := [1], sched := [.sink] }) (fun t => t.phase = .opened) ∧
      (openAt ivx 0 3 []).phase = .opened := by decide

theorem witness_OffsetNeverDecreases :
    let s := { openAt ivx 5 6 [] with outQ := [7], sched := [.sink] }
    s.Inv ∧ (next? (step s)).isSome = true ∧ s.phase = .opened ∧ s.nextAgent ≠ .reset :=
  ⟨openAt_inv ivx 5 6 [] [7] none [] [.sink] (by decide) (by decide) (by decide) rfl (fun _ => by decide) trivial,
    by decide⟩

/-- A malformed word completes with an error. -/
theorem witness_ErrIsWrittenAtCompletion :
    let s := open0.withFetchWord 32 0x00000001
    s.nextAgent ≠ .reset ∧ answers (step s) (fun t => t.err ≠ s.err) := by decide

theorem witness_ErrorMatrix :
    let s := { open0 with cur := some (.flush .start) }
    s.Inv ∧ s.cur = some (.flush .start) ∧ answers (engineStep s) (fun t => t.cur = none) :=
  ⟨openAt_inv ivx 0 0 [] [] (some (.flush .start)) [] [] (by decide) (by decide) (by decide) rfl (fun _ => by decide)
    trivial, by decide⟩

/-- Two open instances that differ in the key, the base IV and the staged byte. -/
theorem witness_HostViewIsIndependentOfSecrets :
    (openAt ivx 0 1 [(0, 5)]).sameView { openAt 0 0 1 [] with key := List.replicate 32 9 } := by
  constructor <;> first | rfl | trivial

/-- The host writes a one-byte WRITE, the sink takes a byte, and the engine appends the written one. -/
theorem witness_OutputLaw :
    let s := { openAt ivx 5 6 [(5, 1)] with
      outQ := [7], hostQ := [writeOp .din 0xAB000000, issue (.write 1)], sched := [.host, .host, .sink, .engine] }
    s.Inv ∧ s.phase = .opened ∧ openRun 4 s = true ∧ acceptedData 4 s = [0xAB] ∧
      answers (run 4 s) (fun t => decide (t.phase ≠ .fault ∧ t.sinkLog = [7])) :=
  ⟨openAt_inv ivx 5 6 [(5, 1)] [7] none _ _ (by decide) (by decide) (by decide) rfl (fun _ => by decide) trivial,
    by decide⟩

/-- The host writes a one-byte WRITE and the engine appends it, in an instance started at offset 5. -/
theorem witness_OutputLawFromAnEmptyBuffer :
    let s := { openAt ivx 5 5 [] with
      hostQ := [writeOp .din 0xAB000000, issue (.write 1)], sched := [.host, .host, .engine] }
    s.Inv ∧ s.phase = .opened ∧ s.waiting = [] ∧ s.outQ = [] ∧ openRun 3 s = true ∧ acceptedData 3 s = [0xAB] ∧
      answers (run 3 s) (fun t => decide (t.phase ≠ .fault ∧ t.waiting = [0xAB])) :=
  ⟨openAt_inv ivx 5 5 [] [] none _ _ (by decide) (by decide) (by decide) rfl (fun _ => by decide) trivial, by decide⟩

theorem witness_CompletedFlushHasDeliveredEverything :
    let s := { openAt ivx 3 3 [] with cur := some (.flush .drain), sched := [.engine] }
    s.Inv ∧ s.phase = .opened ∧ s.nextAgent = .engine ∧ s.cur = some (.flush .drain) ∧
      answers (step s) (fun t => decide (t.cur = none ∧ t.err = .ok)) :=
  ⟨openAt_inv ivx 3 3 [] [] (some (.flush .drain)) [] [.engine] (by decide) (by decide) (by decide) rfl
    (fun _ => by decide) ⟨rfl, rfl⟩, by decide⟩

/-- Two instances of the same stream with different capacities, commands and schedules, both closed. (A run that
transforms data waits for free draws of the primitive.) -/
theorem witness_ChunkInvariance :
    let s := { open0 with hostQ := [issue .close], sched := [.host, .engine] }
    let t := { open0 with cap := 32, hostQ := [issue .flush, issue .close], sched := [.host, .engine, .host, .engine] }
    s.Inv ∧ t.Inv ∧ s.phase = .opened ∧ t.phase = .opened ∧ s.waiting = [] ∧ t.waiting = [] ∧ s.outQ = [] ∧
      t.outQ = [] ∧ s.sinkLog = [] ∧ t.sinkLog = [] ∧ s.key = t.key ∧ s.biv = t.biv ∧ s.off = t.off ∧
      openRun 2 s = true ∧ openRun 4 t = true ∧ answers (run 2 s) (fun u => u.phase = .closed) ∧
      answers (run 4 t) (fun u => u.phase = .closed) ∧ acceptedData 2 s = acceptedData 4 t :=
  ⟨openAt_inv ivx 0 0 [] [] none _ _ (by decide) (by decide) (by decide) rfl (fun _ => by decide) trivial,
    { capRange := fun _ => by decide
      fillRange := fun _ => by decide
      uninitZero := fun h => nomatch h
      roomLeft := fun _ _ => by decide
      outBound := by decide
      outEmpty := fun h => absurd rfl h
      keyOpen := fun _ => .inl rfl
      secretsCleared := fun h => absurd rfl h
      offsetBound := by decide
      bufferWf := rfl
      pendingWf := trivial },
    by decide⟩

theorem witness_TransformResumesAtAnyOffset :
    ([1, 2, 9] : List Byte).length = ([1, 2, 3] : List Byte).length ∧
      ([1, 2, 9] : List Byte)[1]? = ([1, 2, 3] : List Byte)[1]? := by decide

end Sys2Proof.Tests
end

section
/-!
PROOFS. The register window: which register stands at which offset, what a read and a write through the window do, and
the read-only registers of R22, R31, R32 and R33.
-/

namespace Sys2Proof.Machine

/-! ### The register map -/

@[simp] theorem regAt_offset (r : Reg) : regAt r.offset = some r := by
  cases r with
  | key i | iv i | tiv i | div i => revert i; decide
  | _ => rfl

/-- A register stands at its own offset and at no other (R20). -/
theorem regAt_eq_some_iff {o : BitVec 8} {r : Reg} : regAt o = some r ↔ o = r.offset := by
  constructor
  · intro h
    obtain ⟨before, after, hmap, -⟩ := List.lookup_eq_some_iff.mp h
    have hmem : (o, r) ∈ registerMap := by simp [hmap]
    have hrows : ∀ row ∈ registerMap, row.1 = row.2.offset := by decide
    exact hrows (o, r) hmem
  · rintro rfl
    exact regAt_offset r

/-- The offsets of the registers leave out the reserved ones (R20, R41). -/
theorem Reg.offset_not_reserved (r : Reg) :
    r.offset ≠ 0x3C ∧ r.offset ≠ 0x88 ∧ r.offset ≠ 0x8C ∧ r.offset.toNat < 0xA0 := by
  cases r with
  | key i | iv i | tiv i | div i => revert i; decide
  | _ => decide

theorem regAt_reserved {o : BitVec 8} (h : o = 0x3C ∨ o = 0x88 ∨ o = 0x8C ∨ 0xA0 ≤ o.toNat) : regAt o = none := by
  by_contra hne
  obtain ⟨r, hr⟩ := Option.ne_none_iff_exists'.mp hne
  obtain ⟨h3C, h88, h8C, hlt⟩ := r.offset_not_reserved
  rw [regAt_eq_some_iff] at hr
  subst hr
  obtain h | h | h | h := h
  · exact h3C h
  · exact h88 h
  · exact h8C h
  · omega

/-! ### Reads and writes -/

@[simp] theorem busRead_offset (s : State) (r : Reg) : busRead s r.offset = r.read s := by
  rw [busRead, regAt_offset]

@[simp] theorem busWrite_offset (s : State) (r : Reg) (v : Word) : busWrite s r.offset v = r.write s v := by
  rw [busWrite, regAt_offset]

theorem busRead_reserved {o : BitVec 8} (h : regAt o = none) (s : State) : busRead s o = 0 := by
  rw [busRead, h]

theorem busWrite_reserved {o : BitVec 8} (h : regAt o = none) (s : State) (v : Word) : busWrite s o v = s := by
  rw [busWrite, h]

/-- A write to a read-only register is ignored (R72). -/
theorem Reg.write_of_readOnly {r : Reg} (h : r.access = .ro) (s : State) (v : Word) : r.write s v = s := by
  cases r with
  | cmd | din | ioffLo | ioffHi | bufreq | key _ | iv _ | tiv _ | tcntLo | tcntHi => nomatch h
  | _ => rfl

theorem busWrite_of_readOnly {r : Reg} (h : r.access = .ro) (s : State) (v : Word) : busWrite s r.offset v = s := by
  rw [busWrite_offset, Reg.write_of_readOnly h]

/-! ### Halves and fields of registers -/

/-- The upper and the lower register of a 64-bit value hold it (R77). -/
theorem extractLsb_halves (x : DWord) : (x.extractLsb 63 32 ++ x.extractLsb 31 0 : DWord) = x :=
  (BitVec.extractLsb'_append_extractLsb'_eq_extractLsb' rfl).trans BitVec.extractLsb'_eq_self

/-- A value of `m` bits in a register leaves the bits above it 0. -/
theorem extractLsb_above_setWidth {m : Nat} (x : BitVec m) : (x.setWidth 32 : Word).extractLsb 31 m = 0 := by
  ext i
  simp

theorem toNat_countWord {n : Nat} (h : n < 2 ^ 17) : (countWord n).toNat = n := by
  rw [countWord, BitVec.toNat_setWidth, BitVec.toNat_ofNat]
  omega

theorem extractLsb_countWord (n : Nat) : (countWord n).extractLsb 31 17 = 0 :=
  extractLsb_above_setWidth (BitVec.ofNat 17 n)

/-- The reserved bits of `STATUS` are the two zero fields of the word; each is found by dropping the fields below it
(R24). -/
theorem State.statusWord_reserved (s : State) :
    s.statusWord.extractLsb 7 6 = 0 ∧ s.statusWord.extractLsb 31 12 = 0 := by
  unfold State.statusWord BitVec.extractLsb
  constructor
  · iterate 4 rw [BitVec.extractLsb'_append_eq_of_le (by decide)]
    exact BitVec.extractLsb'_append_eq_right
  · iterate 6 rw [BitVec.extractLsb'_append_eq_of_le (by decide)]
    exact BitVec.extractLsb'_eq_self

/-! ### The counter view -/

theorem State.ctr_lt (s : State) : s.ctr < 2 ^ 60 := by
  have := s.off.isLt
  rw [State.ctr, Config.blockBytes]
  omega

@[simp] theorem State.toNat_ctrWord (s : State) : s.ctrWord.toNat = s.ctr := by
  have := s.ctr_lt
  rw [State.ctrWord, BitVec.toNat_ofNat]
  omega

/-- `CTR` has 60 bits, so the top four of `CTR_HI` are 0 (R33). -/
theorem State.ctrHi_top (s : State) : (Reg.ctrHi.read s).extractLsb 31 28 = 0 := by
  have := s.ctr_lt
  apply BitVec.eq_of_toNat_eq
  simp only [Reg.read, BitVec.extractLsb_toNat, State.toNat_ctrWord, Nat.shiftRight_eq_div_pow,
    BitVec.ofNat_eq_ofNat, BitVec.toNat_ofNat]
  omega

/-- `PAD` reads the remainder, which its four bits hold (R33). -/
theorem State.toNat_padWord (s : State) : (Reg.pad.read s).toNat = s.off.toNat % 16 := by
  have := s.pad_lt
  rw [Reg.read, BitVec.toNat_setWidth, BitVec.toNat_ofNat, State.pad, Config.blockBytes]
  omega

/-! ### The counts -/

theorem State.Inv.fill_le_cap {s : State} (h : s.Inv) : s.fill ≤ s.cap := by
  by_cases hp : s.phase = .uninit
  · obtain ⟨-, hfill, -⟩ := h.uninitZero hp
    omega
  · exact (h.fillRange hp).2

/-- The largest capacity fits the 17 bits of a count register (R31, R48). -/
theorem State.Inv.cap_lt {s : State} (h : s.Inv) : s.cap < 2 ^ 17 := by
  by_cases hp : s.phase = .uninit
  · obtain ⟨hcap, -⟩ := h.uninitZero hp
    omega
  · obtain ⟨-, hmax, -⟩ := h.capRange hp
    exact Nat.lt_of_le_of_lt hmax (by decide)

/-! ### The statements -/

/-- Settles O39: no register stands at a reserved offset, and each field ends below the reserved bits above it. -/
theorem reservedSpaceReadsZero : Obligations.ReservedSpaceReadsZero := by
  intro s v
  refine ⟨fun o ho => ?_, s.statusWord_reserved.1, s.statusWord_reserved.2, extractLsb_countWord s.cap,
    extractLsb_countWord s.fill, extractLsb_countWord s.outQ.length, extractLsb_above_setWidth (BitVec.ofNat 4 s.pad)⟩
  have hnone : regAt o = none := regAt_reserved (by tauto)
  exact ⟨hnone, busRead_reserved hnone s, busWrite_reserved hnone s v⟩

/-- Settles O40: `ID` stands at offset 0 and is read-only. -/
theorem idIsConstant : Obligations.IdIsConstant :=
  fun s v => ⟨busRead_offset s .id, busWrite_of_readOnly (r := .id) rfl s v⟩

/-- Settles O42: the five registers are `st.off`, its quotient and its remainder by 16. -/
theorem offsetViews : Obligations.OffsetViews := by
  refine ⟨fun s => ⟨busRead_offset s .offLo, busRead_offset s .offHi, ?_, s.ctr_lt, s.ctrHi_top, s.toNat_padWord⟩, ?_⟩
  · have hctr : (busRead s 0x2C ++ busRead s 0x28 : DWord) = s.ctrWord := extractLsb_halves s.ctrWord
    exact (congrArg BitVec.toNat hctr).trans s.toNat_ctrWord
  · intro o ho
    simp only [List.mem_cons, List.not_mem_nil, or_false] at ho
    obtain rfl | rfl | rfl | rfl | rfl := ho
    · exact ⟨by decide, busWrite_of_readOnly (r := .pad) rfl⟩
    · exact ⟨by decide, busWrite_of_readOnly (r := .offLo) rfl⟩
    · exact ⟨by decide, busWrite_of_readOnly (r := .offHi) rfl⟩
    · exact ⟨by decide, busWrite_of_readOnly (r := .ctrLo) rfl⟩
    · exact ⟨by decide, busWrite_of_readOnly (r := .ctrHi) rfl⟩

/-- Settles O43: the invariant bounds the three counts by the largest capacity, which 17 bits hold. -/
theorem countRegisters : Obligations.CountRegisters := by
  constructor
  · intro s h
    have hcap := h.cap_lt
    have hfill : s.fill < 2 ^ 17 := Nat.lt_of_le_of_lt h.fill_le_cap hcap
    have hout : s.outQ.length < 2 ^ 17 := Nat.lt_of_le_of_lt h.outBound hcap
    exact ⟨toNat_countWord hcap, toNat_countWord hfill, toNat_countWord hout, hcap, hfill, hout⟩
  · intro o ho
    simp only [List.mem_cons, List.not_mem_nil, or_false] at ho
    obtain rfl | rfl | rfl := ho
    · exact ⟨by decide, fun s v => ⟨extractLsb_countWord s.cap, busWrite_of_readOnly (r := .cap) rfl s v⟩⟩
    · exact ⟨by decide, fun s v => ⟨extractLsb_countWord s.fill, busWrite_of_readOnly (r := .fill) rfl s v⟩⟩
    · exact ⟨by decide, fun s v => ⟨extractLsb_countWord s.outQ.length, busWrite_of_readOnly (r := .outcnt) rfl s v⟩⟩

end Sys2Proof.Machine
end

section
/-!
PROOFS. The invariant of R53 along every run. It is split into the part that no pending record enters (`State.BaseInv`)
and what it asks of the record, since a command's intermediate states keep the first while only its last state answers
for the second.
-/

namespace Sys2Proof.Machine

/-! ### The parts of the invariant -/

/-- The invariant without what it asks of the pending record: `State.Inv` but for `roomLeft` and `pendingWf`
(`State.Inv.base`, `State.BaseInv.inv`). -/
structure State.BaseInv (s : State) : Prop where
  capRange : s.phase ≠ .uninit → 16 ≤ s.cap ∧ s.cap ≤ Config.bufMax ∧ s.cap % 16 = 0
  fillRange : s.phase ≠ .uninit → s.pad ≤ s.fill ∧ s.fill ≤ s.cap
  uninitZero : s.phase = .uninit → s.cap = 0 ∧ s.fill = 0 ∧ s.off = 0
  outBound : s.outQ.length ≤ s.cap
  outEmpty : s.phase ≠ .opened → s.outQ = []
  keyOpen : s.phase = .opened → s.key.length = 16 ∨ s.key.length = 24 ∨ s.key.length = 32
  secretsCleared : s.phase ≠ .opened → s.key = [] ∧ s.biv = 0 ∧ s.bufIn = []
  offsetBound : s.off.toNat + s.stagedCount ≤ Config.offLimit
  bufferWf : s.bufIn.wf = true

theorem State.Inv.base {s : State} (h : s.Inv) : s.BaseInv :=
  { h with }

theorem State.BaseInv.inv {s : State} (h : s.BaseInv)
    (hroom : s.phase = .opened → ¬ s.writeRunning → s.fill < s.cap) (hpending : s.pendingOk) : s.Inv :=
  { h with roomLeft := hroom, pendingWf := hpending }

/-- `BaseInv` reads eight fields only. -/
theorem State.BaseInv.congr {s t : State} (h : s.BaseInv) (hphase : t.phase = s.phase := by simp)
    (hkey : t.key = s.key := by simp) (hbiv : t.biv = s.biv := by simp) (hcap : t.cap = s.cap := by simp)
    (hoff : t.off = s.off := by simp) (hfill : t.fill = s.fill := by simp) (hbuf : t.bufIn = s.bufIn := by simp)
    (hout : t.outQ = s.outQ := by simp) : t.BaseInv := by
  obtain ⟨h1, h2, h3, h4, h5, h6, h7, h8, h9⟩ := h
  constructor <;> simpa only [State.stagedCount, State.pad, hphase, hkey, hbiv, hcap, hoff, hfill, hbuf, hout]

/-- The invariant reads the same eight fields and the pending record. -/
theorem State.Inv.congr {s t : State} (h : s.Inv) (hphase : t.phase = s.phase := by simp)
    (hcur : t.cur = s.cur := by simp) (hkey : t.key = s.key := by simp) (hbiv : t.biv = s.biv := by simp)
    (hcap : t.cap = s.cap := by simp) (hoff : t.off = s.off := by simp) (hfill : t.fill = s.fill := by simp)
    (hbuf : t.bufIn = s.bufIn := by simp) (hout : t.outQ = s.outQ := by simp) : t.Inv := by
  refine (h.base.congr hphase hkey hbiv hcap hoff hfill hbuf hout).inv ?_ ?_
  · simpa only [State.writeRunning, hphase, hcur, hfill, hcap] using h.roomLeft
  · simpa only [State.pendingOk, State.stagedCount, State.pad, hphase, hcur, hfill, hcap, hoff] using h.pendingWf

/-- Once a command has ended nothing is pending, and an open stream must have room. -/
theorem State.BaseInv.inv_of_idle {s : State} (h : s.BaseInv) (hcur : s.cur = none)
    (hroom : s.phase = .opened → s.fill < s.cap) : s.Inv :=
  h.inv (fun ho _ => hroom ho) (by rw [State.pendingOk, hcur]; trivial)

theorem State.Inv.room {s : State} (h : s.Inv) (ho : s.phase = .opened)
    (hcur : ∀ n rem, s.cur ≠ some (.write n rem .run)) : s.fill < s.cap := by
  refine h.roomLeft ho fun hw => ?_
  unfold State.writeRunning at hw
  split at hw
  · exact hcur _ _ ‹_›
  · exact hw

/-- A command that leaves its record pending. -/
theorem State.BaseInv.withRecord {s : State} {p : Pending} (h : s.BaseInv)
    (hroom : s.phase = .opened → ¬ { s with cur := some p }.writeRunning → s.fill < s.cap)
    (hpending : { s with cur := some p }.pendingOk) : { s with cur := some p }.Inv :=
  State.BaseInv.inv { h with } hroom hpending

/-- A command that ends with a result code outside a WRITE's RUN stage. -/
theorem State.Inv.finish {s : State} (h : s.Inv) (c : ErrCode) (hcur : ∀ n rem, s.cur ≠ some (.write n rem .run)) :
    (s.finish c).Inv :=
  h.base.congr.inv_of_idle rfl fun ho => h.room ho hcur

theorem State.reset_inv : State.reset.Inv where
  capRange := fun h => absurd rfl h
  fillRange := fun h => absurd rfl h
  uninitZero := fun _ => ⟨rfl, rfl, rfl⟩
  roomLeft := fun h => nomatch h
  outBound := Nat.le_refl 0
  outEmpty := fun _ => rfl
  keyOpen := fun h => nomatch h
  secretsCleared := fun _ => ⟨rfl, rfl, rfl⟩
  offsetBound := by decide
  bufferWf := rfl
  pendingWf := trivial

/-! ### The host, the sink and the reset input -/

@[simp] theorem length_wordBytes (w : Word) : (wordBytes w).length = 4 := rfl

@[simp] theorem State.length_keyBytes (s : State) : s.keyBytes.length = 32 := by
  simp [State.keyBytes, List.length_flatMap]

theorem State.length_dinBytes_le (s : State) (n : Nat) : (s.dinBytes n).length ≤ 4 := by
  simp [State.dinBytes]

/-- Acceptance of a command word while nothing is pending: the sampled operands have their widths and the record is in
its START stage. -/
theorem State.Inv.accept {s : State} (h : s.Inv) (hidle : s.cur = none) (w : Word) : (s.accept w).Inv := by
  have hroom : s.phase = .opened → s.fill < s.cap := fun ho => h.room ho (by simp [hidle])
  refine h.base.congr.inv (fun ho _ => hroom ho) ?_
  rw [State.pendingOk, State.accept_cur, State.sampleWord]
  cases decode w with
  | error e => trivial
  | ok i =>
    cases i with
    | init kl ivb => exact s.length_keyBytes
    | write n => exact s.length_dinBytes_le n
    | nop | flush | close | derive => trivial

theorem State.Inv.popAgent {s : State} (h : s.Inv) : s.popAgent.Inv := h.congr

theorem State.Inv.popHost {s : State} (h : s.Inv) : s.popHost.Inv := h.congr

theorem State.Inv.hostRead {s : State} (h : s.Inv) (o : BitVec 8) : (s.hostRead o).Inv := h.congr

theorem State.Inv.busWrite {s : State} (h : s.Inv) (o : BitVec 8) (v : Word) : (busWrite s o v).Inv := by
  rw [busWrite_frame]
  exact { h with }

theorem hostStep_inv {s t : State} (h : s.Inv) (hs : hostStep s = .next t) : t.Inv := by
  obtain rfl | rfl | ⟨o, rfl⟩ | ⟨o, v, -, rfl⟩ | ⟨v, -, hbusy, rfl⟩ | ⟨-, rfl⟩ := hostStep_cases hs
  · exact h.hostRead _
  · exact (h.hostRead _).popHost
  · exact (h.hostRead o).popHost
  · exact (h.busWrite o v).popHost
  · exact (h.accept (by simpa [State.busy] using hbusy) v).popHost
  · exact h

theorem sinkStep_inv {s : State} (h : s.Inv) : (sinkStep s).Inv := by
  rw [sinkStep]
  split
  · exact h
  · rename_i b q hq
    have hlen := h.outBound
    rw [hq, List.length_cons] at hlen
    exact { h with
      outBound := by dsimp only; omega
      outEmpty := fun hp => absurd (h.outEmpty hp) (by simp [hq]) }

/-! ### INIT -/

theorem keyLength_range {kl : BitVec 2} {len : Nat} (h : keyLength kl = some len) :
    len = 16 ∨ len = 24 ∨ len = 32 := by
  unfold keyLength at h
  split_ifs at h <;> cases h <;> simp

/-- The stream that INIT opens: the capacity is a multiple of 16 within the storage, and only padding is in the buffer
(R201, R205, R206). -/
theorem State.construct_inv (s : State) {key : List Byte} {biv : Block} {cap : Nat} {off : DWord}
    (hkey : key.length = 16 ∨ key.length = 24 ∨ key.length = 32) (hlo : 16 ≤ cap) (hhi : cap ≤ Config.bufMax)
    (hmod : cap % 16 = 0) : (s.construct key biv cap off).Inv := by
  have hfill : off.toNat % Config.blockBytes < cap := by simp only [Config.blockBytes]; omega
  have hoff := off.isLt
  refine State.BaseInv.inv_of_idle ?_ rfl fun _ => hfill
  exact {
    capRange := fun _ => ⟨hlo, hhi, hmod⟩
    fillRange := fun _ => ⟨Nat.le_refl _, Nat.le_of_lt hfill⟩
    uninitZero := fun h => nomatch h
    outBound := Nat.zero_le _
    outEmpty := fun _ => rfl
    keyOpen := fun _ => hkey
    secretsCleared := fun h => absurd rfl h
    offsetBound := by
      simp only [State.stagedCount, State.pad, State.construct_off, State.construct_fill, Config.offLimit]
      omega
    bufferWf := rfl }

theorem initCommand_inv {s : State} (h : s.Inv) (hcur : ∀ n rem, s.cur ≠ some (.write n rem .run)) {kl : BitVec 2}
    {ivb : BitVec 5} {key32 : List Byte} {iv16 : Block} {ioff : DWord} {bufreq : Word} (hkey : key32.length = 32) :
    (initCommand kl ivb key32 iv16 ioff bufreq s).Inv := by
  have hfail (c : ErrCode) : (s.clearStaging.fail c).Inv :=
    (h.congr : s.clearStaging.Inv).finish c hcur
  unfold initCommand
  split
  · exact hfail _
  · split
    · exact hfail _
    · rename_i len hlen
      have hlen := keyLength_range hlen
      split
      · exact hfail _
      · split
        · exact hfail _
        · refine s.clearStaging.construct_inv ?_ (by omega) (by omega) ?_
          · rw [List.length_take]; omega
          · simp only [roundedCapacity, Config.blockBytes]; omega

/-! ### `process` and FAULT entry -/

/-- The staged bytes of a state with the invariant do not take the offset past its range (R165). -/
theorem State.BaseInv.toNat_advance {s : State} (h : s.BaseInv) :
    (s.off + BitVec.ofNat 64 s.stagedCount).toNat = s.off.toNat + s.stagedCount := by
  have hb := h.offsetBound
  rw [Config.offLimit] at hb
  rw [BitVec.toNat_add, BitVec.toNat_ofNat]
  omega

/-- What a completed process leaves: the phase OPEN with only padding in its buffer, at the offset that the staged bytes
had reached, and its output queued (R161). -/
structure ProcessDone (s u : State) : Prop where
  base : u.BaseInv
  phase : u.phase = .opened
  cap : u.cap = s.cap
  fill : u.fill = u.pad
  reached : u.off.toNat = s.off.toNat + s.stagedCount
  queued : u.outQ.length = s.stagedCount

theorem process_done {P : Primitive} {s u : State} (h : s.BaseInv) (ho : s.phase = .opened) (hq : s.outQ = [])
    (hdata : s.pad < s.fill) (hp : process P s = .done u) : ProcessDone s u := by
  have hphase : s.phase ≠ .uninit := by simp [ho]
  obtain ⟨hlo, hhi, -⟩ := h.capRange hphase
  obtain ⟨-, hfill⟩ := h.fillRange hphase
  have hadv := h.toNat_advance
  have hbound := h.offsetBound
  rw [process_eq P (by omega) (by omega)] at hp
  split at hp
  · injection hp with hu
    subst hu
    have hpad := Nat.mod_lt (s.off + BitVec.ofNat 64 s.stagedCount).toNat (show 0 < 16 by decide)
    have hqueue : (s.outQ ++ streamXor P s.key s.biv s.off.toNat s.staged).length = s.stagedCount := by simp [hq]
    refine ⟨?_, ho, rfl, rfl, hadv, hqueue⟩
    exact {
      capRange := h.capRange
      fillRange := fun _ => ⟨Nat.le_refl _, by dsimp only [Config.blockBytes]; omega⟩
      uninitZero := fun hn => absurd hn hphase
      outBound := by rw [hqueue, State.stagedCount]; dsimp only; omega
      outEmpty := fun hn => absurd ho hn
      keyOpen := h.keyOpen
      secretsCleared := h.secretsCleared
      offsetBound := by simp only [State.stagedCount, State.pad] at hadv hbound ⊢; omega
      bufferWf := h.bufferWf }
  · cases hp

/-- FAULT entry clears the secrets and keeps offset, fill and capacity (R235). -/
theorem State.BaseInv.enterFault {s : State} (h : s.BaseInv) (ho : s.phase = .opened) (hq : s.outQ = []) :
    s.enterFault.Inv := by
  have hphase : s.phase ≠ .uninit := by simp [ho]
  refine State.BaseInv.inv_of_idle ?_ rfl fun hn => nomatch hn
  exact {
    capRange := fun _ => h.capRange hphase
    fillRange := fun _ => h.fillRange hphase
    uninitZero := fun hn => nomatch hn
    outBound := h.outBound
    outEmpty := fun _ => hq
    keyOpen := fun hn => nomatch hn
    secretsCleared := fun _ => ⟨rfl, rfl, rfl⟩
    offsetBound := h.offsetBound
    bufferWf := rfl }

theorem process_failed_inv {P : Primitive} {s u : State} (h : s.BaseInv) (ho : s.phase = .opened) (hq : s.outQ = [])
    (hdata : s.pad < s.fill) (hp : process P s = .failed u) : u.enterFault.Inv := by
  have hphase : s.phase ≠ .uninit := by simp [ho]
  obtain ⟨-, hhi, -⟩ := h.capRange hphase
  obtain ⟨-, hfill⟩ := h.fillRange hphase
  rw [process_eq P (by omega) (by omega)] at hp
  split at hp
  · cases hp
  · injection hp with hu
    subst hu
    exact State.BaseInv.enterFault { h with } ho hq

/-! ### FLUSH and CLOSE -/

/-- What the PROC and DRAIN stages need of their command: its records may be left pending in the phase OPEN,
and its end keeps the invariant. -/
structure DrainCommand (record : DrainStage → Pending) (finish : State → State) : Prop where
  proc : ∀ s : State, s.BaseInv → s.phase = .opened → s.fill < s.cap → { s with cur := some (record .proc) }.Inv
  drain : ∀ s : State, s.BaseInv → s.phase = .opened → s.fill < s.cap → s.fill = s.pad →
    { s with cur := some (record .drain) }.Inv
  finish : ∀ s : State, s.BaseInv → s.phase = .opened → s.fill < s.cap → s.outQ = [] → (finish s).Inv

theorem flush_drainCommand : DrainCommand .flush State.succeed where
  proc _ h ho hroom := h.withRecord (fun _ _ => hroom) ho
  drain _ h ho hroom hpad := h.withRecord (fun _ _ => hroom) ⟨ho, hpad⟩
  finish _ h _ hroom _ := h.congr.inv_of_idle rfl fun _ => hroom

/-- The end of a CLOSE clears the secrets and the buffer and keeps offset, fill and capacity (R209, R210). -/
theorem State.BaseInv.closeInstance {s : State} (h : s.BaseInv) (ho : s.phase = .opened) (hq : s.outQ = []) :
    s.closeInstance.Inv := by
  have hfault := (h.enterFault ho hq).base
  refine State.BaseInv.inv_of_idle ?_ rfl fun hn => nomatch hn
  exact { hfault with
    capRange := fun _ => hfault.capRange (by simp)
    fillRange := fun _ => hfault.fillRange (by simp)
    uninitZero := fun hn => nomatch hn
    outEmpty := fun _ => hq
    keyOpen := fun hn => nomatch hn
    secretsCleared := fun _ => ⟨rfl, rfl, rfl⟩ }

theorem close_drainCommand : DrainCommand .close State.closeInstance where
  proc _ h ho hroom := h.withRecord (fun _ _ => hroom) ho
  drain _ h ho hroom hpad := h.withRecord (fun _ _ => hroom) ⟨ho, hpad⟩
  finish _ h ho _ hq := h.closeInstance ho hq

theorem drainStage_inv {record : DrainStage → Pending} {finish : State → State} (hc : DrainCommand record finish)
    {s t : State} (h : s.BaseInv) (ho : s.phase = .opened) (hroom : s.fill < s.cap) (hpad : s.fill = s.pad)
    (hs : drainStage record finish s = .next t) : t.Inv := by
  obtain ⟨hq, rfl⟩ | ⟨-, rfl⟩ := drainStage_cases hs
  · exact hc.finish s h ho hroom hq
  · exact hc.drain s h ho hroom hpad

theorem procStage_inv {P : Primitive} {record : DrainStage → Pending} {finish : State → State}
    (hc : DrainCommand record finish) {s t : State} (h : s.BaseInv) (ho : s.phase = .opened) (hroom : s.fill < s.cap)
    (hs : procStage P record finish s = .next t) : t.Inv := by
  have hphase : s.phase ≠ .uninit := by simp [ho]
  obtain ⟨hnone, hd⟩ | ⟨-, -, rfl⟩ | ⟨hdata, hq, ⟨u, hp, hd⟩ | ⟨u, hp, rfl⟩⟩ := procStage_cases hs
  · have hpad := (h.fillRange hphase).1
    exact drainStage_inv hc h ho hroom (by omega) hd
  · exact hc.proc s h ho hroom
  · have hu := process_done h ho hq hdata hp
    have hlt : u.fill < u.cap := by
      have := u.pad_lt
      have := (h.capRange hphase).1
      rw [hu.fill, hu.cap]; omega
    exact drainStage_inv hc hu.base hu.phase hlt hu.fill hd
  · exact process_failed_inv h ho hq hdata hp

/-! ### WRITE -/

/-- The bytes of `rem` that fit are in the buffer: what the append loop of R163 leaves (`appendWhile_eq_appended`). -/
def State.appended (s : State) (rem : List Byte) : State :=
  { s with
    bufIn := s.bufIn.writeList s.fill (rem.take (s.cap - s.fill))
    fill := s.fill + (rem.take (s.cap - s.fill)).length }

theorem appendWhile_eq_appended (rem : List Byte) {s : State} (hcap : s.cap ≤ Config.bufMax) :
    appendWhile rem s = .ok (rem.drop (s.cap - s.fill), s.appended rem) :=
  appendWhile_eq rem hcap

theorem State.appended_fill (s : State) (rem : List Byte) :
    (s.appended rem).fill = s.fill + min (s.cap - s.fill) rem.length := by
  rw [State.appended, List.length_take]

/-- Everything one round of the RUN stage can do, with `rem` still to be appended (R163, R164). -/
theorem writeLoop_cases {P : Primitive} {n rounds : Nat} {rem : List Byte} {s t : State}
    (hcap : s.cap ≤ Config.bufMax) (h : writeLoop P n (rounds + 1) rem s = .next t) :
    ((s.appended rem).fill ≠ s.cap ∧ t = (s.appended rem).succeed) ∨
    ((s.appended rem).fill = s.cap ∧ s.outQ ≠ [] ∧
      t = { s.appended rem with cur := some (.write n (rem.drop (s.cap - s.fill)) .run) }) ∨
    ((s.appended rem).fill = s.cap ∧ s.outQ = [] ∧
      ((∃ u, process P (s.appended rem) = .done u ∧ writeLoop P n rounds (rem.drop (s.cap - s.fill)) u = .next t) ∨
       (∃ u, process P (s.appended rem) = .failed u ∧ t = u.enterFault))) := by
  rw [writeLoop, appendWhile_eq_appended rem hcap] at h
  dsimp only at h
  split at h
  · rename_i hfull
    split at h
    · rename_i hq
      split at h
      · exact .inr (.inr ⟨hfull, hq, .inl ⟨_, ‹_›, h⟩⟩)
      · cases h; exact .inr (.inr ⟨hfull, hq, .inr ⟨_, ‹_›, rfl⟩⟩)
      · cases h
    · cases h; exact .inr (.inl ⟨hfull, ‹_›, rfl⟩)
  · cases h; exact .inl ⟨‹_›, rfl⟩

/-- What a round of the RUN stage starts from: the phase OPEN, and bytes of a WRITE that the offset limit allows. -/
structure WriteReady (s : State) (rem : List Byte) : Prop where
  base : s.BaseInv
  phase : s.phase = .opened
  short : rem.length ≤ 4
  allowed : s.off.toNat + s.stagedCount + rem.length ≤ Config.offLimit

theorem WriteReady.cap_le {s : State} {rem : List Byte} (h : WriteReady s rem) : s.cap ≤ Config.bufMax := by
  obtain ⟨-, hmax, -⟩ := h.base.capRange (by simp [h.phase])
  exact hmax

/-- Appending keeps what a round starts from, for the bytes that are left. -/
theorem WriteReady.appended {s : State} {rem : List Byte} (h : WriteReady s rem) :
    WriteReady (s.appended rem) (rem.drop (s.cap - s.fill)) := by
  obtain ⟨hb, ho, hshort, hallowed⟩ := h
  have hphase : s.phase ≠ .uninit := by simp [ho]
  obtain ⟨hlo, hhi, hmod⟩ := hb.capRange hphase
  obtain ⟨hpad, hfill⟩ := hb.fillRange hphase
  have hf := s.appended_fill rem
  have hpad' : (s.appended rem).pad = s.pad := rfl
  have hstaged : (s.appended rem).stagedCount = s.stagedCount + min (s.cap - s.fill) rem.length := by
    rw [State.stagedCount, State.stagedCount, hf, hpad']; omega
  have hoff : (s.appended rem).off = s.off := rfl
  refine ⟨?_, ho, by rw [List.length_drop]; omega, by rw [List.length_drop, hstaged, hoff]; omega⟩
  exact { hb with
    fillRange := fun _ => by
      rw [hf, hpad', show (s.appended rem).cap = s.cap from rfl]; omega
    uninitZero := fun hn => absurd hn hphase
    secretsCleared := fun hn => absurd ho hn
    offsetBound := by rw [hstaged, hoff]; omega
    bufferWf := Memory.wf_writeList hb.bufferWf (by rw [List.length_take]; omega) }

/-- A held WRITE: the buffer is full and its record keeps the bytes that are left. -/
theorem WriteReady.held_inv {s : State} {rem : List Byte} (h : WriteReady s rem) (hfull : s.fill = s.cap) (n : Nat) :
    { s with cur := some (.write n rem .run) }.Inv :=
  h.base.withRecord (fun _ hw => absurd trivial hw) ⟨h.phase, h.short, hfull, h.allowed⟩

/-- A WRITE that ends with room left in the buffer. -/
theorem WriteReady.succeed_inv {s : State} {rem : List Byte} (h : WriteReady s rem) (hroom : s.fill ≠ s.cap) :
    s.succeed.Inv := by
  have hfill := (h.base.fillRange (by simp [h.phase])).2
  exact h.base.congr.inv_of_idle rfl fun _ => by simp only [State.succeed_fill, State.succeed_cap]; omega

/-- With output queued a round of the RUN stage makes no process: it ends the WRITE or holds. -/
theorem writeLoop_inv_of_queued {P : Primitive} {n rounds : Nat} {rem : List Byte} {s t : State} (h : WriteReady s rem)
    (hq : s.outQ ≠ []) (hs : writeLoop P n (rounds + 1) rem s = .next t) : t.Inv := by
  obtain ⟨hroom, rfl⟩ | ⟨hfull, -, rfl⟩ | ⟨-, hempty, -⟩ := writeLoop_cases h.cap_le hs
  · exact h.appended.succeed_inv hroom
  · exact h.appended.held_inv hfull n
  · exact absurd hempty hq

/-- A full buffer holds data beyond the padding, since the capacity is at least a block. -/
theorem State.BaseInv.pad_lt_of_full {s : State} (h : s.BaseInv) (ho : s.phase = .opened) (hfull : s.fill = s.cap) :
    s.pad < s.fill := by
  have hpad := s.pad_lt
  obtain ⟨hlo, -⟩ := h.capRange (by simp [ho])
  omega

/-- After a process the output queue is not empty, so the second round is the last (R166). -/
theorem writeLoop_inv {P : Primitive} {n rounds : Nat} {rem : List Byte} {s t : State} (h : WriteReady s rem)
    (hs : writeLoop P n (rounds + 2) rem s = .next t) : t.Inv := by
  by_cases hq : s.outQ = []
  · obtain ⟨hroom, rfl⟩ | ⟨-, hne, -⟩ | ⟨hfull, -, hprocess⟩ := writeLoop_cases h.cap_le hs
    · exact h.appended.succeed_inv hroom
    · exact absurd hq hne
    · obtain ⟨hb, ho, hshort, hallowed⟩ := h.appended
      have hdata := hb.pad_lt_of_full ho hfull
      obtain ⟨u, hp, hrest⟩ | ⟨u, hp, rfl⟩ := hprocess
      · have hu := process_done hb ho hq hdata hp
        have hnone : u.stagedCount = 0 := by rw [State.stagedCount, hu.fill, Nat.sub_self]
        have hready : WriteReady u (rem.drop (s.cap - s.fill)) :=
          ⟨hu.base, hu.phase, hshort, by rw [hnone, hu.reached]; exact hallowed⟩
        have hqueued : u.outQ ≠ [] := by
          rw [← List.length_pos_iff, hu.queued, State.stagedCount]; omega
        exact writeLoop_inv_of_queued hready hqueued hrest
      · exact process_failed_inv hb ho hq hdata hp
  · exact writeLoop_inv_of_queued h hq hs

/-! ### The engine -/

/-- A record that is not a WRITE's RUN stage leaves no WRITE running. -/
theorem State.not_writeRun {s : State} {p : Pending} (h : s.cur = some p) (hp : ∀ n rem, p ≠ .write n rem .run) :
    ∀ n rem, s.cur ≠ some (.write n rem .run) := by
  rw [h]; simpa using hp

theorem writeCommand_inv {P : Primitive} {n : Nat} {s t : State} {rem : List Byte} {stage : WriteStage} (h : s.Inv)
    (hcur : s.cur = some (.write n rem stage)) (hs : writeCommand P n s = .next t) : t.Inv := by
  have hp := h.pendingWf
  rw [State.pendingOk, hcur] at hp
  rw [writeCommand, State.recordFor_pending hcur rfl] at hs
  cases stage with
  | start =>
    have hfail (c : ErrCode) : (s.fail c).Inv := h.finish c (State.not_writeRun hcur (by simp))
    dsimp only at hs hp
    split at hs
    · cases hs; exact hfail _
    · cases hs; exact hfail _
    · cases hs; exact hfail _
    · rename_i ho
      split at hs
      · cases hs; exact hfail _
      · rename_i hlimit
        simp only [State.pastOffsetLimit, decide_eq_true_eq, Nat.not_lt] at hlimit
        exact writeLoop_inv ⟨h.base, ho, hp, hlimit⟩ hs
  | run =>
    obtain ⟨ho, hshort, -, hlimit⟩ := hp
    exact writeLoop_inv ⟨h.base, ho, hshort, hlimit⟩ hs

theorem flushCommand_inv {P : Primitive} {s t : State} {stage : DrainStage} (h : s.Inv)
    (hcur : s.cur = some (.flush stage)) (hs : flushCommand P s = .next t) : t.Inv := by
  have hnot := State.not_writeRun hcur (by simp)
  have hp := h.pendingWf
  rw [State.pendingOk, hcur] at hp
  rw [flushCommand, State.recordFor_pending hcur rfl] at hs
  cases stage with
  | start =>
    dsimp only at hs
    split at hs
    · cases hs; exact h.finish _ hnot
    · cases hs; exact h.finish _ hnot
    · cases hs; exact h.finish _ hnot
    · exact procStage_inv flush_drainCommand h.base ‹_› (h.room ‹_› hnot) hs
  | proc => exact procStage_inv flush_drainCommand h.base hp (h.room hp hnot) hs
  | drain =>
    obtain ⟨ho, hpad⟩ := hp
    exact drainStage_inv flush_drainCommand h.base ho (h.room ho hnot) hpad hs

/-- CLOSE in the phase FAULT: the secrets are clear already (R212). -/
theorem State.Inv.closeFaulted {s : State} (h : s.Inv) (hf : s.phase = .fault) :
    ({ s with phase := .closed }.succeed).Inv := by
  have hphase : s.phase ≠ .uninit := by simp [hf]
  have hopen : s.phase ≠ .opened := by simp [hf]
  refine State.BaseInv.inv_of_idle ?_ rfl fun hn => nomatch hn
  exact { h.base with
    capRange := fun _ => h.capRange hphase
    fillRange := fun _ => h.fillRange hphase
    uninitZero := fun hn => nomatch hn
    outEmpty := fun _ => h.outEmpty hopen
    keyOpen := fun hn => nomatch hn
    secretsCleared := fun _ => h.secretsCleared hopen }

theorem closeCommand_inv {P : Primitive} {s t : State} {stage : DrainStage} (h : s.Inv)
    (hcur : s.cur = some (.close stage)) (hs : closeCommand P s = .next t) : t.Inv := by
  have hnot := State.not_writeRun hcur (by simp)
  have hp := h.pendingWf
  rw [State.pendingOk, hcur] at hp
  rw [closeCommand, State.recordFor_pending hcur rfl] at hs
  cases stage with
  | start =>
    dsimp only at hs
    split at hs
    · cases hs; exact h.finish _ hnot
    · cases hs; exact h.finish _ hnot
    · cases hs; exact h.closeFaulted ‹_›
    · exact procStage_inv close_drainCommand h.base ‹_› (h.room ‹_› hnot) hs
  | proc => exact procStage_inv close_drainCommand h.base hp (h.room hp hnot) hs
  | drain =>
    obtain ⟨ho, hpad⟩ := hp
    exact drainStage_inv close_drainCommand h.base ho (h.room ho hnot) hpad hs

/-- A pending command that runs keeps the invariant, one case for each kind of record. -/
theorem exec_inv {s t : State} {p : Pending} {i : Instr} (h : s.Inv) (hcur : s.cur = some p) (hi : p.instr = some i)
    (hs : exec i s = .next t) : t.Inv := by
  have hrec := State.recordFor_pending hcur hi
  cases p with
  | illegal => cases hi
  | nop =>
    cases hi
    rw [exec, execNop, hrec] at hs
    cases hs
    exact h.finish _ (State.not_writeRun hcur (by simp))
  | derive tiv tcnt =>
    cases hi
    rw [exec, execDerive, hrec] at hs
    cases hs
    have hdiv : { s with div := deriveBlock tiv tcnt }.Inv := { h with }
    exact hdiv.finish _ (State.not_writeRun hcur (by simp))
  | init kl ivb key32 iv16 ioff bufreq =>
    cases hi
    have hkey := h.pendingWf
    rw [State.pendingOk, hcur] at hkey
    rw [exec, execInit, hrec] at hs
    cases hs
    exact initCommand_inv h (State.not_writeRun hcur (by simp)) hkey
  | write n rem stage => cases hi; exact writeCommand_inv h hcur hs
  | flush stage => cases hi; exact flushCommand_inv h hcur hs
  | close stage => cases hi; exact closeCommand_inv h hcur hs

theorem engineStep_inv {s t : State} (h : s.Inv) (hs : engineStep s = .next t) : t.Inv := by
  obtain ⟨-, rfl⟩ | ⟨p, -, -, rfl⟩ | ⟨p, i, hcur, -, hi, hx⟩ | ⟨hcur, rfl⟩ := engineStep_cases hs
  · exact h
  · exact h
  · exact exec_inv h hcur hi hx
  · exact h.finish _ (State.not_writeRun hcur (by simp))

/-! ### Steps and runs -/

/-- Every step of every agent keeps the invariant. -/
theorem step_inv {s t : State} (h : s.Inv) (hs : step s = .next t) : t.Inv := by
  obtain ⟨-, hh⟩ | ⟨-, he⟩ | ⟨-, rfl⟩ | ⟨-, rfl⟩ := step_cases hs
  · exact hostStep_inv h.popAgent hh
  · exact engineStep_inv h.popAgent he
  · exact sinkStep_inv h.popAgent
  · exact State.reset_inv.congr

theorem run_inv {k : Nat} {s t : State} (h : s.Inv) (hs : run k s = .next t) : t.Inv := by
  induction k generalizing s with
  | zero => cases hs; exact h
  | succ k ih =>
    rw [run] at hs
    split at hs
    · exact ih (step_inv h ‹_›) hs
    · cases hs
    · cases hs

/-- Settles O48: the invariant holds at reset, whatever is placed for the agents, and every step keeps it. -/
theorem reachableStatesSatisfyTheInvariants : Obligations.ReachableStatesSatisfyTheInvariants := by
  intro ops agents k t hrun
  have hstart : { State.reset with hostQ := ops, sched := agents }.Inv :=
    { State.reset_inv with }
  have h : t.Inv := run_inv hstart hrun
  refine ⟨h.fillRange, fun ho hidle => h.room ho (by simp [hidle]), h.outBound, fun hp _ => h.outEmpty hp, fun ho => ?_,
    fun hp => (h.secretsCleared hp).1, h.offsetBound⟩
  simpa using h.keyOpen ho

end Sys2Proof.Machine
end

section
/-!
PROOFS. The illegal command words of R106: why they decode to no command, and what the engine does with the record that
their acceptance leaves (R214).
-/

namespace Sys2Proof.Machine

/-! ### Words without a command -/

theorem decode_reservedOpcode {w : Word} (hop : 6 ≤ (w.extractLsb 31 24).toNat) :
    decode w = .error (.reservedOpcode (w.extractLsb 31 24)) := by
  have hne (c : BitVec 8) (hc : c.toNat < 6) : w.extractLsb 31 24 ≠ c := by
    rintro rfl
    omega
  rw [decode, if_neg (hne 0#8 (by decide)), if_neg (hne 1#8 (by decide)), if_neg (hne 2#8 (by decide)),
    if_neg (hne 3#8 (by decide)), if_neg (hne 4#8 (by decide)), if_neg (hne 5#8 (by decide))]

/-- The commands without operands need bits 23:0 to be 0 (R101). -/
theorem decode_plain_operandBits {w : Word} (hop : (w.extractLsb 31 24).toNat ∈ [0, 3, 4, 5])
    (hbits : w.extractLsb 23 0 ≠ 0) : decode w = .error (.operandBits (w.extractLsb 31 24)) := by
  have hopcode (c : BitVec 8) (hc : (w.extractLsb 31 24).toNat = c.toNat) : w.extractLsb 31 24 = c :=
    BitVec.eq_of_toNat_eq hc
  simp only [List.mem_cons, List.not_mem_nil, or_false] at hop
  simp only [decode, if_neg hbits]
  obtain h | h | h | h := hop
  · simp [hopcode 0#8 h]
  · simp [hopcode 3#8 h]
  · simp [hopcode 4#8 h]
  · simp [hopcode 5#8 h]

/-- INIT needs the bits outside `IVB` and `KL` to be 0 (R102). -/
theorem decode_init_operandBits {w : Word} (hop : (w.extractLsb 31 24).toNat = 1)
    (hbits : w.extractLsb 23 13 ≠ 0 ∨ w.extractLsb 7 2 ≠ 0) :
    decode w = .error (.operandBits (w.extractLsb 31 24)) := by
  have hopcode : w.extractLsb 31 24 = 1#8 := BitVec.eq_of_toNat_eq hop
  have hfields : ¬ (w.extractLsb 23 13 = 0 ∧ w.extractLsb 7 2 = 0) := by tauto
  rw [decode, hopcode, if_neg (by decide), if_pos rfl, if_neg hfields]

/-- WRITE needs the bits above `NM1` to be 0 (R103). -/
theorem decode_write_operandBits {w : Word} (hop : (w.extractLsb 31 24).toNat = 2)
    (hbits : w.extractLsb 23 2 ≠ 0) : decode w = .error (.operandBits (w.extractLsb 31 24)) := by
  have hopcode : w.extractLsb 31 24 = 2#8 := BitVec.eq_of_toNat_eq hop
  rw [decode, hopcode, if_neg (by decide), if_neg (by decide), if_pos rfl, if_neg hbits]

/-! ### The ILLEGAL record -/

theorem State.sampleWord_of_error {w : Word} {e : DecodeError} (h : decode w = .error e) (s : State) :
    s.sampleWord w = .illegal := by
  rw [State.sampleWord, h]

@[simp] theorem State.accept_busy (s : State) (w : Word) : (s.accept w).busy = true := rfl

/-- The ILLEGAL record never holds, and runs to `ILLEGAL_COMMAND` in any phase (R214). -/
theorem engineStep_illegal {s : State} (h : s.cur = some .illegal) :
    engineStep s = .next (s.fail .illegalCommand) := by
  have hhold : s.hold = false := by rw [State.hold, h]
  simp [engineStep, h, hhold, Pending.instr, execIllegal]

/-- The engine's step on an accepted word without a command undoes the acceptance but for `ERR`. -/
theorem engineStep_accept_of_error {s : State} {w : Word} {e : DecodeError} (h : decode w = .error e)
    (hidle : s.cur = none) : engineStep (s.accept w) = .next { s with err := .illegalCommand } := by
  have hcur : (s.accept w).cur = some .illegal := by rw [State.accept_cur, s.sampleWord_of_error h]
  have hundone : (s.accept w).fail .illegalCommand = { s with err := .illegalCommand, cur := none } := rfl
  rw [engineStep_illegal hcur, hundone, ← hidle]

/-! ### The statement -/

/-- Settles O5: each way to be illegal is a decoding error, and a word with one is recorded as ILLEGAL. -/
theorem illegalWordsOnlySetErr : Obligations.IllegalWordsOnlySetErr := by
  intro w hw s hidle
  have herr : ∃ e, decode w = .error e := by
    obtain hop | ⟨hop, hbits⟩ | ⟨hop, hbits⟩ | ⟨hop, hbits⟩ := hw
    · exact ⟨_, decode_reservedOpcode hop⟩
    · exact ⟨_, decode_plain_operandBits hop hbits⟩
    · exact ⟨_, decode_init_operandBits hop hbits⟩
    · exact ⟨_, decode_write_operandBits hop hbits⟩
  obtain ⟨e, he⟩ := herr
  exact ⟨s.accept_busy w, engineStep_accept_of_error he hidle⟩

end Sys2Proof.Machine
end

section
/-!
PROOFS. The counter adder: big-endian byte strings as numbers (00_scope.md R8), the closed form and the byte-serial
carry chain (40_counter_arithmetic.md R130, R131), and the rules R132, R133, R134 and R138 that follow from the closed
form.
-/

namespace Sys2Proof.Machine

/-! ### Byte strings as numbers -/

@[simp] theorem length_beBytes (n v : Nat) : (beBytes n v).length = n := by
  induction n with
  | zero => rfl
  | succ n ih => rw [beBytes, List.length_cons, ih]

/-- `n` bytes hold the value modulo `2^(8n)`. -/
@[simp] theorem be_beBytes (n v : Nat) : be (beBytes n v) = v % 2 ^ (8 * n) := by
  induction n with
  | zero => rw [beBytes, be, Nat.mul_zero, Nat.pow_zero, Nat.mod_one]
  | succ n ih =>
    have hsplit : v % 2 ^ (8 * (n + 1)) = v % 2 ^ (8 * n) + 2 ^ (8 * n) * (v / 2 ^ (8 * n) % 2 ^ 8) := by
      rw [Nat.mul_succ, Nat.pow_add, Nat.mod_mul]
    rw [beBytes, be, length_beBytes, ih, BitVec.toNat_ofNat, hsplit, Nat.mul_comm, Nat.add_comm]

theorem be_append_singleton (l : List Byte) (b : Byte) : be (l ++ [b]) = 256 * be l + b.toNat := by
  induction l with
  | nil => simp [be]
  | cons a l ih =>
    have hpow : 2 ^ (8 * (l.length + 1)) = 256 * 2 ^ (8 * l.length) := by rw [Nat.mul_succ, Nat.pow_add, Nat.mul_comm]
    rw [List.cons_append, be, ih, be, List.length_append, List.length_singleton, hpow]
    ring

/-- The last of the bytes is the value's lowest; the others hold the rest of the value. -/
theorem beBytes_succ_last (n v : Nat) : beBytes (n + 1) v = beBytes n (v / 256) ++ [BitVec.ofNat 8 v] := by
  induction n with
  | zero => simp [beBytes]
  | succ n ih =>
    have hdiv : v / 2 ^ (8 * (n + 1)) = v / 256 / 2 ^ (8 * n) := by
      rw [Nat.div_div_eq_div_mul, Nat.mul_succ, Nat.pow_add, Nat.mul_comm]
    rw [beBytes, ih, beBytes, hdiv, List.cons_append]

/-- The bytes of a byte string's value are the string. -/
@[simp] theorem beBytes_be (l : List Byte) : beBytes l.length (be l) = l := by
  induction l using List.reverseRecOn with
  | nil => rfl
  | append_singleton l b ih =>
    have hlow : BitVec.ofNat 8 (256 * be l + b.toNat) = b := by
      apply BitVec.eq_of_toNat_eq
      rw [BitVec.toNat_ofNat]
      omega
    have hrest : (256 * be l + b.toNat) / 256 = be l := by omega
    rw [List.length_append, List.length_singleton, be_append_singleton, beBytes_succ_last, hrest, ih, hlow]

/-- Bytes above the `n`-th do not enter. -/
@[simp] theorem beBytes_mod (n v : Nat) : beBytes n (v % 2 ^ (8 * n)) = beBytes n v := by
  have h := beBytes_be (beBytes n v)
  rwa [length_beBytes, be_beBytes] at h

theorem beBytes_eq_map (n v : Nat) :
    beBytes n v = (List.range n).map fun i => BitVec.ofNat 8 (v / 2 ^ (8 * (n - 1 - i))) := by
  induction n with
  | zero => rfl
  | succ n ih =>
    rw [beBytes, ih, List.range_succ_eq_map, List.map_cons, List.map_map]
    congr 1
    refine List.map_congr_left fun i _ => ?_
    rw [Function.comp_apply, show n + 1 - 1 - i.succ = n - 1 - i by omega]

/-- A block's bytes are those of its value (R76, R78). -/
theorem blockBytes_eq_beBytes (b : Block) : blockBytes b = beBytes 16 b.toNat := by
  rw [blockBytes, beBytes_eq_map]
  refine List.map_congr_left fun i hi => ?_
  have hplace : 120 - 8 * i = 8 * (16 - 1 - i) := by omega
  rw [blockByte, BitVec.extractLsb', Nat.shiftRight_eq_div_pow, hplace]

@[simp] theorem be_blockBytes (b : Block) : be (blockBytes b) = b.toNat := by
  rw [blockBytes_eq_beBytes, be_beBytes, Nat.mod_eq_of_lt b.isLt]

/-! ### The adder -/

@[simp] theorem length_deriveIV (b : List Byte) (c : DWord) : (deriveIV b c).length = b.length :=
  length_beBytes _ _

@[simp] theorem be_deriveIV (b : List Byte) (c : DWord) :
    be (deriveIV b c) = (be b + c.toNat) % 2 ^ (8 * b.length) := by
  rw [deriveIV, be_beBytes, Nat.mod_mod]

/-- The reduction modulo `2^(8n)` is what `n` bytes do to a value in any case. -/
theorem deriveIV_eq_beBytes (b : List Byte) (c : DWord) : deriveIV b c = beBytes b.length (be b + c.toNat) :=
  beBytes_mod _ _

@[simp] theorem toNat_deriveBlock (b : Block) (c : DWord) :
    (deriveBlock b c).toNat = (b.toNat + c.toNat) % 2 ^ 128 := by
  rw [deriveBlock, BitVec.toNat_ofNat, Nat.mod_mod]

/-- The hardware's adder is the byte adder at sixteen bytes (R130). -/
theorem blockBytes_deriveBlock (b : Block) (c : DWord) : blockBytes (deriveBlock b c) = deriveIV (blockBytes b) c := by
  rw [blockBytes_eq_beBytes, toNat_deriveBlock, deriveIV, be_blockBytes, length_blockBytes]

/-! ### The carry chain -/

/-- The byte added at place `k` is the counter's, which is 0 above its eighth byte (R131). -/
theorem toNat_addendByte (c : DWord) (k : Nat) : (addendByte c k).toNat = c.toNat / 2 ^ (8 * k) % 256 := by
  rw [addendByte]
  split
  · rw [BitVec.extractLsb'_toNat, Nat.shiftRight_eq_div_pow]
  · have hlt : c.toNat < 2 ^ (8 * k) := Nat.lt_of_lt_of_le c.isLt (Nat.pow_le_pow_right (by decide) (by omega))
    rw [Nat.div_eq_of_lt hlt]
    rfl

/-- From place `k` on, the chain adds what is left of the counter and the incoming carry: `l` holds the bytes of the IV
from place `k` up, least significant first. -/
theorem carryChain_reverse (c : DWord) (k carry : Nat) (l : List Byte) :
    (carryChain c k carry l).reverse = beBytes l.length (be l.reverse + c.toNat / 2 ^ (8 * k) + carry) := by
  induction l generalizing k carry with
  | nil => rfl
  | cons b rest ih =>
    have hnext : c.toNat / 2 ^ (8 * (k + 1)) = c.toNat / 2 ^ (8 * k) / 256 := by
      rw [Nat.div_div_eq_div_mul, Nat.mul_succ, Nat.pow_add]
    rw [carryChain, List.reverse_cons, ih, List.length_cons, beBytes_succ_last, List.reverse_cons, be_append_singleton,
      hnext, toNat_addendByte]
    generalize c.toNat / 2 ^ (8 * k) = q
    have hcarry : be rest.reverse + q / 256 + (b.toNat + q % 256 + carry) / 256 =
        (256 * be rest.reverse + b.toNat + q + carry) / 256 := by omega
    have hbyte : BitVec.ofNat 8 ((b.toNat + q % 256 + carry) % 256) =
        BitVec.ofNat 8 (256 * be rest.reverse + b.toNat + q + carry) := by
      apply BitVec.eq_of_toNat_eq
      simp only [BitVec.toNat_ofNat]
      omega
    rw [hcarry, hbyte]

/-! ### The statements -/

/-- Settles O7: the chain starts at place 0 without a carry, so it adds the whole counter. -/
theorem serialAdderAgrees : Obligations.SerialAdderAgrees := by
  intro b c
  rw [deriveIVSerial, carryChain_reverse, deriveIV_eq_beBytes, List.length_reverse, List.reverse_reverse, Nat.mul_zero,
    Nat.pow_zero, Nat.div_one, Nat.add_zero]

/-- Settles O8: a block's bytes are the sixteen bytes of its value, so both adders reduce the same sum. -/
theorem blockAdderIsTheByteAdder : Obligations.BlockAdderIsTheByteAdder := by
  refine ⟨fun l c => ⟨rfl, length_deriveIV l c⟩, fun b c => ⟨?_, blockBytes_deriveBlock b c⟩⟩
  rw [blockBytes_eq_beBytes, toNat_deriveBlock, be_blockBytes]

/-- Settles O9: the bytes keep the sum modulo `2^(8n)`, which is the sum itself below that bound. -/
theorem adderWrapsAtItsWidth : Obligations.AdderWrapsAtItsWidth := by
  intro b c
  refine ⟨be_deriveIV b c, fun hlt => ?_⟩
  rw [be_deriveIV, Nat.mod_eq_of_lt hlt]

/-- Settles O10: the sum is the IV's own value, and its bytes are the IV. -/
theorem zeroCounterKeepsTheIV : Obligations.ZeroCounterKeepsTheIV := by
  intro b
  have hsum : be b + (0 : DWord).toNat = be b := rfl
  rw [deriveIV_eq_beBytes, hsum, beBytes_be]

/-- Settles O11: reducing the counter first leaves the sum modulo `2^(8n)` the same. -/
theorem narrowIVIgnoresHighCounterBytes : Obligations.NarrowIVIgnoresHighCounterBytes := by
  refine ⟨fun b c _ => ?_, by decide⟩
  have hlow : (BitVec.ofNat 64 (c.toNat % 2 ^ (8 * b.length))).toNat = c.toNat % 2 ^ (8 * b.length) := by
    rw [BitVec.toNat_ofNat, Nat.mod_eq_of_lt (Nat.lt_of_le_of_lt (Nat.mod_le _ _) c.isLt)]
  rw [deriveIV, deriveIV, hlow, Nat.add_mod_mod]

/-- Settles O12: the 64-bit sum of the counters does not wrap, and the reduction after the first step changes nothing
modulo `2^(8n)`. -/
theorem counterStepsCompose : Obligations.CounterStepsCompose := by
  intro b c j hlt
  have hsum : (c + j).toNat = c.toNat + j.toNat := by rw [BitVec.toNat_add, Nat.mod_eq_of_lt hlt]
  rw [deriveIV, hsum, deriveIV, be_deriveIV, length_deriveIV, Nat.mod_add_mod, Nat.add_assoc]

end Sys2Proof.Machine
end

section
/-!
PROOFS. DERIVE (40_counter_arithmetic.md R139): what its acceptance records, what it leaves, and the block that the
registers `DIV0`-`DIV3` read.
-/

namespace Sys2Proof.Machine

theorem decode_encode_derive : decode (encode .derive) = .ok .derive := rfl

/-- The word of a command is recorded as the command with its operands sampled. -/
theorem State.sampleWord_of_ok {w : Word} {i : Instr} (h : decode w = .ok i) (s : State) :
    s.sampleWord w = s.sample i := by
  rw [State.sampleWord, h]

/-- The acceptance of DERIVE samples `TIV` and `TCNT` (R139). -/
theorem State.accept_derive (s : State) :
    s.accept (encode .derive) = { s with cur := some (.derive (groupBlock s.tiv) s.tcnt) } := by
  rw [State.accept, s.sampleWord_of_ok decode_encode_derive, State.sample]

/-- DERIVE from its record, whatever the phase. -/
theorem exec_derive {s : State} {t : Block} {c : DWord} (h : s.cur = some (.derive t c)) :
    exec .derive s = .next { s with div := deriveBlock t c, err := .ok, cur := none } := by
  rw [exec, execDerive, State.recordFor_pending h rfl]
  rfl

/-- The four registers of a group hold its block (R40, R76). -/
theorem blockWord_append (b : Block) :
    (blockWord b 0 ++ blockWord b 1 ++ blockWord b 2 ++ blockWord b 3 : Block) = b := by
  have h01 : blockWord b 0 ++ blockWord b 1 = b.extractLsb' 64 64 :=
    BitVec.extractLsb'_append_extractLsb'_eq_extractLsb' rfl
  have h012 : b.extractLsb' 64 64 ++ blockWord b 2 = b.extractLsb' 32 96 :=
    BitVec.extractLsb'_append_extractLsb'_eq_extractLsb' rfl
  have h0123 : b.extractLsb' 32 96 ++ blockWord b 3 = b.extractLsb' 0 128 :=
    BitVec.extractLsb'_append_extractLsb'_eq_extractLsb' rfl
  rw [h01, h012, h0123, BitVec.extractLsb'_eq_self]

/-- Settles O13: acceptance and the command's one step cancel but for `DIV` and `ERR`. -/
theorem deriveWritesTheSum : Obligations.DeriveWritesTheSum := by
  refine ⟨decode_encode_derive, State.accept_derive, fun s t c h => exec_derive h, fun s hidle => ?_,
    fun s => blockWord_append s.div⟩
  rw [State.accept_derive, exec_derive rfl, ← hidle]

end Sys2Proof.Machine
end

section
/-!
PROOFS. The offset limit of WRITE (41_stream_transform.md R165) and the FLUSH of an empty buffer (R168): what an accepted
command runs from, and which states and result codes WRITE and FLUSH end with.
-/

namespace Sys2Proof.Machine

/-! ### Acceptance -/

theorem decode_encode_write {n : Nat} (hlo : 1 ≤ n) (hhi : n ≤ 4) : decode (encode (.write n)) = .ok (.write n) := by
  interval_cases n <;> rfl

theorem decode_encode_flush : decode (encode .flush) = .ok .flush := rfl

theorem State.accept_cur_of_ok {w : Word} {i : Instr} (h : decode w = .ok i) (s : State) :
    (s.accept w).cur = some (s.sample i) := by
  rw [State.accept_cur, s.sampleWord_of_ok h]

/-- Ending an accepted command undoes the acceptance but for `ERR`. -/
theorem State.accept_finish {s : State} (hidle : s.cur = none) (w : Word) (c : ErrCode) :
    (s.accept w).finish c = { s with err := c } := by
  have hundone : (s.accept w).finish c = { s with err := c, cur := none } := rfl
  rw [hundone, ← hidle]

theorem State.length_dinBytes {n : Nat} (h : n ≤ 4) (s : State) : (s.dinBytes n).length = n := by
  rw [State.dinBytes, List.length_take, length_wordBytes, Nat.min_eq_left h]

/-! ### WRITE -/

/-- WRITE at its START in the phase OPEN: the offset-limit check, then its loop (R163, R165). -/
theorem writeCommand_start {P : Primitive} {n : Nat} {s : State} {rem : List Byte}
    (hcur : s.cur = some (.write n rem .start)) (ho : s.phase = .opened) :
    writeCommand P n s =
      if s.pastOffsetLimit rem.length then .next (s.fail .offsetLimit) else writeLoop P n 2 rem s := by
  simp only [writeCommand, State.recordFor_pending hcur rfl, ho]

theorem writeCommand_run {P : Primitive} {n : Nat} {s : State} {rem : List Byte}
    (hcur : s.cur = some (.write n rem .run)) : writeCommand P n s = writeLoop P n 2 rem s := by
  simp only [writeCommand, State.recordFor_pending hcur rfl]

theorem State.pastOffsetLimit_iff (s : State) (n : Nat) :
    s.pastOffsetLimit n = true ↔ 2 ^ 64 - 1 < s.off.toNat + (s.fill - s.pad) + n := by
  rw [State.pastOffsetLimit, decide_eq_true_iff, State.stagedCount, Config.offLimit]

/-- A WRITE that ends in its loop ends with success or, at a failed invocation, in FAULT. -/
theorem writeLoop_code {P : Primitive} {n rounds : Nat} {rem : List Byte} {s t : State}
    (h : writeLoop P n rounds rem s = .next t) (hidle : t.cur = none) : t.err = .ok ∨ t.err = .primitiveFailure := by
  induction rounds generalizing rem s with
  | zero => cases h; cases hidle
  | succ rounds ih =>
    rw [writeLoop] at h
    split at h
    · cases h
    · split at h
      · split at h
        · split at h
          · exact ih h
          · cases h; exact .inr rfl
          · cases h
        · cases h; cases hidle
      · cases h; exact .inl rfl

/-- Settles O18: the check compares exactly the sum of the statement, and past it no path of the loop ends with
`OFFSET_LIMIT`. -/
theorem writePastTheLimitIsRefused : Obligations.WritePastTheLimitIsRefused := by
  intro s n hidle ho hlo hhi
  have hexec : exec (.write n) (s.accept (encode (.write n))) =
      if s.pastOffsetLimit n then .next { s with err := .offsetLimit }
      else writeLoop Config.primitive n 2 (s.dinBytes n) (s.accept (encode (.write n))) := by
    have hcur := s.accept_cur_of_ok (decode_encode_write hlo hhi)
    have hlimit : (s.accept (encode (.write n))).pastOffsetLimit n = s.pastOffsetLimit n := rfl
    rw [exec, execWrite, writeCommand_start hcur ho, s.length_dinBytes hhi, hlimit, State.fail,
      State.accept_finish hidle]
  refine ⟨fun hpast => ?_, fun hwithin t ht hdone => ?_⟩
  · rw [hexec, if_pos ((s.pastOffsetLimit_iff n).mpr hpast)]
  · have hnot : ¬ s.pastOffsetLimit n = true := by
      rw [s.pastOffsetLimit_iff]
      omega
    rw [hexec, if_neg hnot] at ht
    obtain hcode | hcode := writeLoop_code ht hdone <;> simp [hcode]

/-! ### FLUSH and CLOSE -/

theorem drainStage_of_empty {s : State} (hq : s.outQ = []) (record : DrainStage → Pending) (finish : State → State) :
    drainStage record finish s = .next (finish s) := by
  rw [drainStage, if_pos hq]

/-- With nothing staged the PROC stage passes at once (R167). -/
theorem procStage_of_nothing {s : State} (h : s.fill = s.pad) (P : Primitive) (record : DrainStage → Pending)
    (finish : State → State) : procStage P record finish s = drainStage record finish s := by
  rw [procStage, if_neg (by omega)]

/-- In the phase OPEN a FLUSH runs alike from each of its stages: a record in DRAIN has nothing staged. -/
theorem flushCommand_opened {P : Primitive} {s : State} {stage : DrainStage} (h : s.Inv) (ho : s.phase = .opened)
    (hcur : s.cur = some (.flush stage)) : flushCommand P s = procStage P .flush State.succeed s := by
  have hp := h.pendingWf
  rw [State.pendingOk, hcur] at hp
  cases stage with
  | start | proc => simp only [flushCommand, State.recordFor_pending hcur rfl, ho]
  | drain =>
    rw [procStage_of_nothing hp.2]
    simp only [flushCommand, State.recordFor_pending hcur rfl]

theorem closeCommand_opened {P : Primitive} {s : State} {stage : DrainStage} (h : s.Inv) (ho : s.phase = .opened)
    (hcur : s.cur = some (.close stage)) : closeCommand P s = procStage P .close State.closeInstance s := by
  have hp := h.pendingWf
  rw [State.pendingOk, hcur] at hp
  cases stage with
  | start | proc => simp only [closeCommand, State.recordFor_pending hcur rfl, ho]
  | drain =>
    rw [procStage_of_nothing hp.2]
    simp only [closeCommand, State.recordFor_pending hcur rfl]

/-- A FLUSH ends with success in the phase OPEN only: its phase check fails elsewhere, and is behind a record past
START (R167). -/
theorem flushCommand_opened_of_ok {P : Primitive} {s t : State} {stage : DrainStage} (h : s.Inv)
    (hcur : s.cur = some (.flush stage)) (hs : flushCommand P s = .next t) (hok : t.err = .ok) :
    s.phase = .opened := by
  have hp := h.pendingWf
  rw [State.pendingOk, hcur] at hp
  cases stage with
  | start =>
    simp only [flushCommand, State.recordFor_pending hcur rfl] at hs
    split at hs
    · cases hs; cases hok
    · cases hs; cases hok
    · cases hs; cases hok
    · assumption
  | proc => exact hp
  | drain => exact hp.1

/-- A command that has gone through PROC and DRAIN with success ends where only padding is in the buffer and the output
queue is empty (R167). -/
theorem procStage_ok {P : Primitive} {record : DrainStage → Pending} {finish : State → State} {s t : State}
    (h : s.BaseInv) (ho : s.phase = .opened) (hs : procStage P record finish s = .next t) (hidle : t.cur = none)
    (hok : t.err = .ok) : ∃ u, u.phase = .opened ∧ u.fill = u.pad ∧ u.outQ = [] ∧ t = finish u := by
  have hdrain {u : State} (hu : u.phase = .opened) (hpad : u.fill = u.pad)
      (hd : drainStage record finish u = .next t) :
      ∃ u, u.phase = .opened ∧ u.fill = u.pad ∧ u.outQ = [] ∧ t = finish u := by
    obtain ⟨hq, rfl⟩ | ⟨-, rfl⟩ := drainStage_cases hd
    · exact ⟨u, hu, hpad, hq, rfl⟩
    · cases hidle
  obtain ⟨hnone, hd⟩ | ⟨-, -, rfl⟩ | ⟨hdata, hq, ⟨u, hp, hd⟩ | ⟨u, -, rfl⟩⟩ := procStage_cases hs
  · have hpad := (h.fillRange (by simp [ho])).1
    exact hdrain ho (by omega) hd
  · cases hidle
  · have hu := process_done h ho hq hdata hp
    exact hdrain hu.phase hu.fill hd
  · cases hok

/-- A FLUSH with nothing staged and nothing queued leaves the state but for `ERR` (R168). -/
theorem exec_flush_of_nothing {s : State} (hidle : s.cur = none) (ho : s.phase = .opened) (hpad : s.fill = s.pad)
    (hq : s.outQ = []) : exec .flush (s.accept (encode .flush)) = .next { s with err := .ok } := by
  have hcur := s.accept_cur_of_ok decode_encode_flush
  have hcommand : exec .flush (s.accept (encode .flush)) =
      procStage Config.primitive .flush State.succeed (s.accept (encode .flush)) := by
    simp only [exec, execFlush, flushCommand, State.recordFor_pending hcur rfl, State.sample, State.accept_phase, ho]
  rw [hcommand, procStage_of_nothing (s := s.accept _) hpad, drainStage_of_empty (s := s.accept _) hq, State.succeed,
    State.accept_finish hidle]

/-- Settles O25: a completed FLUSH leaves what the no-op FLUSH starts from, with `ERR` already OK. -/
theorem flushIsIdempotent : Obligations.FlushIsIdempotent := by
  refine ⟨fun s => exec_flush_of_nothing, fun s t stage h hcur hs hidle hok => ?_⟩
  rw [exec, execFlush] at hs
  have ho := flushCommand_opened_of_ok h hcur hs hok
  rw [flushCommand_opened h ho hcur] at hs
  obtain ⟨u, hu, hpad, hq, rfl⟩ := procStage_ok h.base ho hs hidle hok
  exact ⟨hu, hpad, hq, exec_flush_of_nothing hidle hu hpad hq⟩

end Sys2Proof.Machine
end

section
/-!
PROOFS. The bytes the sink gets (41_stream_transform.md R171, R173). A stream's account is what its future output depends
on: the bytes delivered once everything taken in is transformed, the key, the base IV and the next stream position. Every
step of an open stream leaves the account but for the data bytes it takes in; the buffer's capacity, the commands and
the order of the steps do not enter.
-/

namespace Sys2Proof.Machine

/-! ### The account of a stream -/

/-- What the future output of a stream depends on. -/
structure StreamAccount where
  /-- The bytes the sink will have received (`State.eventual`). -/
  eventual : List Byte
  key : List Byte
  biv : Block
  /-- The stream position of the next data byte. -/
  position : Nat

/-- The account once further data bytes have been taken in. -/
def StreamAccount.take (P : Primitive) (a : StreamAccount) (data : List Byte) : StreamAccount :=
  { a with
    eventual := a.eventual ++ streamXor P a.key a.biv a.position data
    position := a.position + data.length }

theorem StreamAccount.take_nil (P : Primitive) (a : StreamAccount) : a.take P [] = a := by
  simp [StreamAccount.take, streamXor]

theorem StreamAccount.take_append (P : Primitive) (a : StreamAccount) (d e : List Byte) :
    a.take P (d ++ e) = (a.take P d).take P e := by
  simp [StreamAccount.take, streamXor_append, Nat.add_assoc]

/-- The account of a state whose command still has `rem` to append. -/
def State.account (P : Primitive) (s : State) (rem : List Byte) : StreamAccount where
  eventual := s.sinkLog ++ s.outQ ++ streamXor P s.key s.biv s.off.toNat (s.staged ++ rem)
  key := s.key
  biv := s.biv
  position := s.off.toNat + (s.staged ++ rem).length

/-- The account's bytes are those of the output law's vocabulary. -/
theorem State.account_eventual (P : Primitive) (s : State) : (s.account P s.unappended).eventual = s.eventual P := rfl

theorem State.account_append (P : Primitive) (s : State) (rem data : List Byte) :
    s.account P (rem ++ data) = (s.account P rem).take P data := by
  simp [State.account, StreamAccount.take, streamXor_append, Nat.add_assoc]

/-- The account reads seven fields only. -/
theorem State.account_congr {s t : State} (P : Primitive) (rem : List Byte) (hsink : t.sinkLog = s.sinkLog := by simp)
    (hout : t.outQ = s.outQ := by simp) (hkey : t.key = s.key := by simp) (hbiv : t.biv = s.biv := by simp)
    (hoff : t.off = s.off := by simp) (hfill : t.fill = s.fill := by simp) (hbuf : t.bufIn = s.bufIn := by simp) :
    t.account P rem = s.account P rem := by
  simp only [State.account, State.staged, State.stagedCount, State.pad, hsink, hout, hkey, hbiv, hoff, hfill, hbuf]

/-- The bytes a pending WRITE still has to append depend on the record and on how far the stream has come. -/
theorem State.unappended_congr {s t : State} (hcur : t.cur = s.cur := by simp) (hoff : t.off = s.off := by simp)
    (hfill : t.fill = s.fill := by simp) : t.unappended = s.unappended := by
  have hlimit : t.pastOffsetLimit = s.pastOffsetLimit := by
    funext n
    rw [Bool.eq_iff_iff, State.pastOffsetLimit_iff, State.pastOffsetLimit_iff, State.pad, State.pad, hoff, hfill]
  rw [State.unappended, State.unappended, hcur, hlimit]

theorem State.unappended_of_idle {s : State} (h : s.cur = none) : s.unappended = [] := by
  rw [State.unappended, h]

theorem State.staged_of_padOnly {s : State} (h : s.fill = s.pad) : s.staged = [] := by
  rw [State.staged, State.stagedCount, h, Nat.sub_self, Memory.readFrom]

/-! ### What the engine does to the account -/

/-- Appending moves bytes from the record to the buffer. -/
theorem WriteReady.staged_appended {s : State} {rem : List Byte} (h : WriteReady s rem) :
    (s.appended rem).staged = s.staged ++ rem.take (s.cap - s.fill) := by
  obtain ⟨hpad, hfill⟩ := h.base.fillRange (by simp [h.phase])
  have hcap := h.cap_le
  set bytes := rem.take (s.cap - s.fill) with hbytes
  have hfit : s.fill + bytes.length ≤ Config.bufMax := by
    rw [hbytes, List.length_take]
    omega
  have hcount : (s.appended rem).stagedCount = s.stagedCount + bytes.length := by
    change s.fill + bytes.length - s.pad = s.fill - s.pad + bytes.length
    omega
  have hend : s.pad + s.stagedCount = s.fill := by
    rw [State.stagedCount]
    omega
  have hold : (s.bufIn.writeList s.fill bytes).readFrom s.pad s.stagedCount = s.bufIn.readFrom s.pad s.stagedCount :=
    Memory.readFrom_congr fun j _ hj => by
      rw [Memory.read_writeList h.base.bufferWf hfit, if_neg (by omega)]
  rw [State.staged, hcount]
  change (s.bufIn.writeList s.fill bytes).readFrom s.pad (s.stagedCount + bytes.length) = _
  rw [Memory.readFrom_append, hend, Memory.readFrom_writeList h.base.bufferWf hfit, hold, State.staged]

theorem WriteReady.account_appended {s : State} {rem : List Byte} (h : WriteReady s rem) (P : Primitive) :
    (s.appended rem).account P (rem.drop (s.cap - s.fill)) = s.account P rem := by
  have hstaged : (s.appended rem).staged ++ rem.drop (s.cap - s.fill) = s.staged ++ rem := by
    rw [h.staged_appended, List.append_assoc, List.take_append_drop]
  rw [State.account, State.account, hstaged]
  rfl

/-- A process moves the staged bytes, transformed, to the output queue (R161, R171). -/
theorem process_account {P : Primitive} {s u : State} (h : s.BaseInv) (ho : s.phase = .opened) (hq : s.outQ = [])
    (hdata : s.pad < s.fill) (hp : process P s = .done u) (rem : List Byte) : u.account P rem = s.account P rem := by
  have hu := process_done h ho hq hdata hp
  obtain ⟨-, hmax, -⟩ := h.capRange (by simp [ho])
  obtain ⟨-, hfill⟩ := h.fillRange (by simp [ho])
  have hfields : u.sinkLog = s.sinkLog ∧ u.outQ = s.outQ ++ streamXor P s.key s.biv s.off.toNat s.staged ∧
      u.key = s.key ∧ u.biv = s.biv := by
    rw [process_eq P (by omega) (by omega)] at hp
    split at hp <;> cases hp
    exact ⟨rfl, rfl, rfl, rfl⟩
  obtain ⟨hsink, hout, hkey, hbiv⟩ := hfields
  simp [State.account, State.staged_of_padOnly hu.fill, hsink, hout, hkey, hbiv, hu.reached, streamXor_append,
    Nat.add_assoc]

/-- What a step of an open stream answers, for the account `a` that the stream then has: the stream goes on with it,
CLOSE has delivered it all, or the phase is FAULT. -/
inductive StreamOutcome (P : Primitive) (a : StreamAccount) (t : State) : Prop where
  | running (hopen : t.phase = .opened) (haccount : t.account P t.unappended = a)
  | closed (hclosed : t.phase = .closed) (hdelivered : t.sinkLog = a.eventual)
  | faulted (hfault : t.phase = .fault)

/-- The loop of WRITE, for the bytes it still has to append. -/
theorem writeLoop_outcome {P : Primitive} {n rounds : Nat} {rem : List Byte} {s t : State} (h : WriteReady s rem)
    (hs : writeLoop P n rounds rem s = .next t) : StreamOutcome P (s.account P rem) t := by
  induction rounds generalizing rem s with
  | zero =>
    cases hs
    exact .running h.phase rfl
  | succ rounds ih =>
    have hready := h.appended
    rw [← h.account_appended P]
    obtain ⟨hroom, rfl⟩ | ⟨-, -, rfl⟩ | ⟨hfull, hq, ⟨u, hp, hrest⟩ | ⟨u, -, rfl⟩⟩ := writeLoop_cases h.cap_le hs
    · have hnone : rem.drop (s.cap - s.fill) = [] := by
        have hfill := (h.base.fillRange (by simp [h.phase])).2
        rw [s.appended_fill] at hroom
        exact List.drop_of_length_le (by omega)
      rw [hnone]
      exact .running h.phase rfl
    · exact .running h.phase rfl
    · obtain ⟨hb, ho, hshort, hallowed⟩ := hready
      have hdata := hb.pad_lt_of_full ho hfull
      have hu := process_done hb ho hq hdata hp
      have hnone : u.stagedCount = 0 := by rw [State.stagedCount, hu.fill, Nat.sub_self]
      rw [← process_account hb ho hq hdata hp]
      exact ih ⟨hu.base, hu.phase, hshort, by rw [hnone, hu.reached]; exact hallowed⟩ hrest
    · exact .faulted rfl

/-- What the account needs of FLUSH and CLOSE: their records hold no data, and they end well where everything has been
transformed and taken. -/
structure DrainOutcome (P : Primitive) (record : DrainStage → Pending) (finish : State → State) : Prop where
  noData : ∀ (s : State) (stage : DrainStage), { s with cur := some (record stage) }.unappended = []
  finish : ∀ s : State, s.phase = .opened → s.fill = s.pad → s.outQ = [] →
    StreamOutcome P (s.account P []) (finish s)

theorem flush_drainOutcome (P : Primitive) : DrainOutcome P .flush State.succeed where
  noData _ _ := rfl
  finish _ ho _ _ := .running ho rfl

theorem close_drainOutcome (P : Primitive) : DrainOutcome P .close State.closeInstance where
  noData _ _ := rfl
  finish _ _ hpad hq := .closed rfl (by simp [State.account, State.staged_of_padOnly hpad, hq, streamXor])

theorem drainStage_outcome {P : Primitive} {record : DrainStage → Pending} {finish : State → State}
    (hc : DrainOutcome P record finish) {s t : State} (ho : s.phase = .opened) (hpad : s.fill = s.pad)
    (hs : drainStage record finish s = .next t) : StreamOutcome P (s.account P []) t := by
  obtain ⟨hq, rfl⟩ | ⟨-, rfl⟩ := drainStage_cases hs
  · exact hc.finish s ho hpad hq
  · exact .running ho (by rw [hc.noData]; rfl)

theorem procStage_outcome {P : Primitive} {record : DrainStage → Pending} {finish : State → State}
    (hc : DrainOutcome P record finish) {s t : State} (h : s.BaseInv) (ho : s.phase = .opened)
    (hs : procStage P record finish s = .next t) : StreamOutcome P (s.account P []) t := by
  obtain ⟨hnone, hd⟩ | ⟨-, -, rfl⟩ | ⟨hdata, hq, ⟨u, hp, hd⟩ | ⟨u, -, rfl⟩⟩ := procStage_cases hs
  · have hpad := (h.fillRange (by simp [ho])).1
    exact drainStage_outcome hc ho (by omega) hd
  · exact .running ho (by rw [hc.noData]; rfl)
  · have hu := process_done h ho hq hdata hp
    rw [← process_account h ho hq hdata hp]
    exact drainStage_outcome hc hu.phase hu.fill hd
  · exact .faulted rfl

/-- A step that leaves the phase, what the account reads and the bytes still to be appended. -/
theorem StreamOutcome.unchanged {P : Primitive} {s t : State} (ho : s.phase = .opened) (hphase : t.phase = s.phase)
    (haccount : t.account P s.unappended = s.account P s.unappended) (hunappended : t.unappended = s.unappended) :
    StreamOutcome P (s.account P s.unappended) t :=
  .running (hphase.trans ho) (by rw [hunappended, haccount])

/-- A command without data of its own that ends at once. -/
theorem StreamOutcome.finish {P : Primitive} {s : State} (ho : s.phase = .opened) (hnone : s.unappended = [])
    (c : ErrCode) : StreamOutcome P (s.account P s.unappended) (s.finish c) := by
  rw [hnone]
  exact .running ho rfl

/-- A WRITE from its record: at START the offset limit decides whether its bytes are the stream's (R163, R165). -/
theorem writeCommand_outcome {P : Primitive} {n : Nat} {s t : State} {rem : List Byte} {stage : WriteStage} (h : s.Inv)
    (ho : s.phase = .opened) (hcur : s.cur = some (.write n rem stage)) (hs : writeCommand P n s = .next t) :
    StreamOutcome P (s.account P s.unappended) t := by
  have hp := h.pendingWf
  rw [State.pendingOk, hcur] at hp
  cases stage with
  | start =>
    have hrem : s.unappended = if s.pastOffsetLimit rem.length then [] else rem := by rw [State.unappended, hcur]
    rw [writeCommand_start hcur ho] at hs
    split at hs
    · rename_i hpast
      rw [if_pos hpast] at hrem
      cases hs
      exact .finish ho hrem _
    · rename_i hwithin
      rw [if_neg hwithin] at hrem
      simp only [State.pastOffsetLimit, decide_eq_true_eq, Nat.not_lt] at hwithin
      rw [hrem]
      exact writeLoop_outcome ⟨h.base, ho, hp, hwithin⟩ hs
  | run =>
    have hrem : s.unappended = rem := by rw [State.unappended, hcur]
    obtain ⟨-, hshort, -, hlimit⟩ := hp
    rw [writeCommand_run hcur] at hs
    rw [hrem]
    exact writeLoop_outcome ⟨h.base, ho, hshort, hlimit⟩ hs

/-- A pending command that runs, one case for each kind of record. -/
theorem exec_outcome {s t : State} {p : Pending} {i : Instr} (h : s.Inv) (ho : s.phase = .opened)
    (hcur : s.cur = some p) (hi : p.instr = some i) (hs : exec i s = .next t) :
    StreamOutcome Config.primitive (s.account Config.primitive s.unappended) t := by
  have hrec := State.recordFor_pending hcur hi
  cases p with
  | illegal => cases hi
  | write n rem stage => cases hi; exact writeCommand_outcome h ho hcur hs
  | flush stage =>
    cases hi
    have hnone : s.unappended = [] := by rw [State.unappended, hcur]
    rw [exec, execFlush, flushCommand_opened h ho hcur] at hs
    rw [hnone]
    exact procStage_outcome (flush_drainOutcome _) h.base ho hs
  | close stage =>
    cases hi
    have hnone : s.unappended = [] := by rw [State.unappended, hcur]
    rw [exec, execClose, closeCommand_opened h ho hcur] at hs
    rw [hnone]
    exact procStage_outcome (close_drainOutcome _) h.base ho hs
  | nop =>
    cases hi
    rw [exec, execNop, hrec] at hs
    cases hs
    exact .finish ho (by rw [State.unappended, hcur]) _
  | derive tiv tcnt =>
    cases hi
    rw [exec, execDerive, hrec] at hs
    cases hs
    have hnone : s.unappended = [] := by rw [State.unappended, hcur]
    rw [hnone]
    exact .running ho rfl
  | init kl ivb key32 iv16 ioff bufreq =>
    cases hi
    have hnone : s.unappended = [] := by rw [State.unappended, hcur]
    rw [exec, execInit, hrec] at hs
    cases hs
    rw [initCommand, if_pos ho, hnone]
    exact .running ho rfl

theorem engineStep_outcome {s t : State} (h : s.Inv) (ho : s.phase = .opened) (hs : engineStep s = .next t) :
    StreamOutcome Config.primitive (s.account Config.primitive s.unappended) t := by
  obtain ⟨-, rfl⟩ | ⟨p, -, -, rfl⟩ | ⟨p, i, hcur, -, hi, hx⟩ | ⟨hcur, rfl⟩ := engineStep_cases hs
  · exact .running ho rfl
  · exact .running ho rfl
  · exact exec_outcome h ho hcur hi hx
  · exact .finish ho (by rw [State.unappended, hcur]) _

/-! ### The sink and the host -/

/-- The byte the sink takes moves from the queue to its log. -/
theorem sinkStep_outcome {P : Primitive} {s : State} (ho : s.phase = .opened) :
    StreamOutcome P (s.account P s.unappended) (sinkStep s) := by
  rw [sinkStep]
  split
  · exact .running ho rfl
  · rename_i b q hq
    refine .unchanged ho rfl ?_ (State.unappended_congr rfl rfl rfl)
    simp only [State.account, hq, List.append_assoc, List.singleton_append]
    rfl

/-- The host's next operation is a `CMD` write that is accepted. -/
def State.hostCommand (s : State) (v : Word) : Prop :=
  s.nextHostOp = .access (.write Reg.cmd.offset 32 v) ∧ s.busy = false

/-- The data bytes taken in are those the accepted record is to append (R163). -/
theorem State.acceptedNow_of_hostCommand {s : State} {v : Word} (ha : s.nextAgent = .host) (hv : s.hostCommand v) :
    s.acceptedNow = (s.accept v).unappended := by
  obtain ⟨hop, hbusy⟩ := hv
  have htransaction : isTransaction Reg.cmd.offset 32 = true := rfl
  simp only [State.acceptedNow, ha, hop, hbusy, htransaction, and_self, if_true, State.unappended, State.accept_cur,
    State.sampleWord]
  cases decode v with
  | error e => rfl
  | ok i => cases i <;> rfl

/-- A step that accepts no command takes in no data. -/
theorem State.acceptedNow_eq_nil {s : State} (h : ∀ v, s.nextAgent = .host → ¬ s.hostCommand v) :
    s.acceptedNow = [] := by
  rw [State.acceptedNow]
  split
  · rename_i o bits v ha hop
    split
    · rename_i hv
      obtain ⟨htransaction, rfl, hbusy⟩ := hv
      simp only [isTransaction, decide_eq_true_eq] at htransaction
      obtain ⟨rfl, -⟩ := htransaction
      exact absurd ⟨hop, hbusy⟩ (h v ha)
    · rfl
  · rfl

theorem State.acceptedNow_of_not_host {s : State} (ha : s.nextAgent ≠ .host) : s.acceptedNow = [] :=
  State.acceptedNow_eq_nil fun _ hhost => absurd hhost ha

theorem hostStep_of_hostCommand {s : State} {v : Word} (hv : s.hostCommand v) :
    hostStep s = .next (s.accept v).popHost := by
  obtain ⟨hop, hbusy⟩ := hv
  have htransaction : isTransaction Reg.cmd.offset 32 = true := rfl
  simp [hostStep, hop, hbusy, htransaction]

/-- The scheduling choice does not enter what the host does or what its command appends. -/
theorem State.hostCommand_popAgent (s : State) (v : Word) : s.popAgent.hostCommand v ↔ s.hostCommand v := by
  unfold State.popAgent
  split <;> rfl

theorem State.unappended_popAgent_accept (s : State) (v : Word) :
    (s.popAgent.accept v).unappended = (s.accept v).unappended := by
  unfold State.popAgent
  split <;> rfl

theorem hostStep_outcome {P : Primitive} {s t : State} (ho : s.phase = .opened) (hs : hostStep s = .next t) :
    (∃ v, s.hostCommand v ∧ StreamOutcome P ((s.account P s.unappended).take P (s.accept v).unappended) t) ∨
    ((∀ v, ¬ s.hostCommand v) ∧ StreamOutcome P (s.account P s.unappended) t) := by
  by_cases hv : ∃ v, s.hostCommand v
  · obtain ⟨v, hv⟩ := hv
    rw [hostStep_of_hostCommand hv] at hs
    cases hs
    have hidle : s.cur = none := by simpa [State.busy] using hv.2
    have hunappended : (s.accept v).popHost.unappended = (s.accept v).unappended := State.unappended_congr
    refine .inl ⟨v, hv, .running (by simpa using ho) ?_⟩
    rw [State.unappended_of_idle hidle, ← State.account_append, List.nil_append, hunappended]
    exact State.account_congr P _
  · rw [not_exists] at hv
    refine .inr ⟨hv, ?_⟩
    obtain rfl | rfl | ⟨o, rfl⟩ | ⟨o, v, -, rfl⟩ | ⟨v, hop, hbusy, -⟩ | ⟨-, rfl⟩ := hostStep_cases hs
    · exact .unchanged ho rfl (State.account_congr P _) State.unappended_congr
    · exact .unchanged ho (by simp) (State.account_congr P _) State.unappended_congr
    · exact .unchanged ho (by simp) (State.account_congr P _) State.unappended_congr
    · rw [busWrite_frame]
      exact .unchanged ho (by simp) (State.account_congr P _) State.unappended_congr
    · exact absurd ⟨hop, hbusy⟩ (hv v)
    · exact .running ho rfl

/-! ### Steps and runs -/

/-- One step of an open stream: its account grows by the data bytes the step takes in. -/
theorem step_outcome {s t : State} (h : s.Inv) (ho : s.phase = .opened) (hreset : s.nextAgent ≠ .reset)
    (hs : step s = .next t) :
    StreamOutcome Config.primitive
      ((s.account Config.primitive s.unappended).take Config.primitive s.acceptedNow) t := by
  have hopen : s.popAgent.phase = .opened := by simpa using ho
  have hunappended : s.popAgent.unappended = s.unappended := State.unappended_congr
  have haccount : s.popAgent.account Config.primitive s.popAgent.unappended =
      s.account Config.primitive s.unappended := by
    rw [hunappended]
    exact State.account_congr Config.primitive _
  rw [← haccount]
  obtain ⟨ha, hh⟩ | ⟨ha, he⟩ | ⟨ha, rfl⟩ | ⟨ha, -⟩ := step_cases hs
  · obtain ⟨v, hv, hout⟩ | ⟨hnone, hout⟩ := hostStep_outcome hopen hh
    · rw [State.acceptedNow_of_hostCommand ha ((s.hostCommand_popAgent v).mp hv), ← s.unappended_popAgent_accept]
      exact hout
    · have hnothing : s.acceptedNow = [] :=
        State.acceptedNow_eq_nil fun v _ hv => hnone v ((s.hostCommand_popAgent v).mpr hv)
      rw [hnothing, StreamAccount.take_nil]
      exact hout
  · rw [State.acceptedNow_of_not_host (by simp [ha]), StreamAccount.take_nil]
    exact engineStep_outcome h.popAgent hopen he
  · rw [State.acceptedNow_of_not_host (by simp [ha]), StreamAccount.take_nil]
    exact sinkStep_outcome hopen
  · exact absurd ha hreset

theorem acceptedData_succ {k : Nat} {s t : State} (hs : step s = .next t) :
    acceptedData (k + 1) s = s.acceptedNow ++ acceptedData k t := by
  rw [acceptedData, hs]

theorem run_succ {k : Nat} {s t : State} (hr : run (k + 1) s = .next t) : ∃ u, step s = .next u ∧ run k u = .next t := by
  rw [run] at hr
  split at hr
  · exact ⟨_, ‹_›, hr⟩
  · cases hr
  · cases hr

theorem openRun_succ {k : Nat} {s u : State} (h : openRun (k + 1) s = true) (hs : step s = .next u) :
    s.phase = .opened ∧ s.nextAgent ≠ .reset ∧ openRun k u = true := by
  simpa [openRun, hs, and_assoc] using h

/-- A run that is open at every step's start: the account grows by the data bytes the run takes in. -/
theorem run_outcome {k : Nat} {s t : State} (h : s.Inv) (ho : s.phase = .opened) (hopen : openRun k s = true)
    (hr : run k s = .next t) :
    StreamOutcome Config.primitive
      ((s.account Config.primitive s.unappended).take Config.primitive (acceptedData k s)) t := by
  induction k generalizing s with
  | zero =>
    cases hr
    rw [acceptedData, StreamAccount.take_nil]
    exact .running ho rfl
  | succ k ih =>
    obtain ⟨u, hs, hr⟩ := run_succ hr
    obtain ⟨-, hreset, hopen⟩ := openRun_succ hopen hs
    have hstep := step_outcome h ho hreset hs
    rw [acceptedData_succ hs, StreamAccount.take_append]
    cases k with
    | zero =>
      cases hr
      rw [acceptedData, StreamAccount.take_nil]
      exact hstep
    | succ k =>
      obtain ⟨v, hu, -⟩ := run_succ hr
      obtain ⟨huopen, -, -⟩ := openRun_succ hopen hu
      cases hstep with
      | running _ haccount =>
        rw [← haccount]
        exact ih (step_inv h hs) huopen hopen hr
      | closed hclosed => rw [huopen] at hclosed; cases hclosed
      | faulted hfault => rw [huopen] at hfault; cases hfault

/-- What a stream has given the sink when it is closed: all that its account comes to. -/
theorem run_closed_sinkLog {k : Nat} {s t : State} (h : s.Inv) (ho : s.phase = .opened) (hopen : openRun k s = true)
    (hr : run k s = .next t) (hclosed : t.phase = .closed) :
    t.sinkLog =
      ((s.account Config.primitive s.unappended).take Config.primitive (acceptedData k s)).eventual := by
  cases run_outcome h ho hopen hr with
  | running hopened => rw [hclosed] at hopened; cases hopened
  | closed _ hdelivered => exact hdelivered
  | faulted hfault => rw [hclosed] at hfault; cases hfault

/-- The account of a stream with nothing waiting, queued or received. -/
theorem State.account_of_empty {s : State} (hwaiting : s.waiting = []) (hq : s.outQ = []) (hsink : s.sinkLog = [])
    (P : Primitive) : s.account P s.unappended = ⟨[], s.key, s.biv, s.off.toNat⟩ := by
  rw [State.waiting] at hwaiting
  rw [State.account, hwaiting, hq, hsink]
  rfl

/-- Settles O58: both streams start with the same account and take in the same data, so they deliver the same bytes. -/
theorem chunkInvariance : Obligations.ChunkInvariance := by
  intro k₁ k₂ s₁ s₂ t₁ t₂ h₁ h₂ ho₁ ho₂ hw₁ hw₂ hq₁ hq₂ hl₁ hl₂ hkey hbiv hoff hopen₁ hopen₂ hr₁ hr₂ hc₁ hc₂ hdata
  rw [run_closed_sinkLog h₁ ho₁ hopen₁ hr₁ hc₁, run_closed_sinkLog h₂ ho₂ hopen₂ hr₂ hc₂,
    State.account_of_empty hw₁ hq₁ hl₁, State.account_of_empty hw₂ hq₂ hl₂, hkey, hbiv, hoff, hdata]

end Sys2Proof.Machine
end

section
/-!
PROOFS. The lifecycle commands (42_lifecycle.md): NOP in every phase (R200), the buffer sizes that INIT takes (R205),
the commands that need an open instance in the other phases (R211, R213), and CLOSE of a faulted instance (R212).
-/

namespace Sys2Proof.Machine

/-! ### NOP -/

theorem decode_encode_nop : decode (encode .nop) = .ok .nop := rfl

/-- NOP from its record, whatever the phase. -/
theorem exec_nop {s : State} (hcur : s.cur = some .nop) : exec .nop s = .next s.succeed := by
  rw [exec, execNop, State.recordFor_pending hcur rfl]

/-- Settles O14: acceptance and the end of the command cancel but for `ERR`. -/
theorem nopOnlyClearsErr : Obligations.NopOnlyClearsErr := by
  refine ⟨decode_encode_nop, fun s => ⟨fun hidle => ?_, exec_nop⟩⟩
  rw [exec_nop (s.accept_cur_of_ok decode_encode_nop), State.succeed, State.accept_finish hidle]

/-! ### INIT -/

/-- `KL` and `IVB` keep their places in the word, so one evaluation over their 128 values decides it. -/
theorem decode_encode_init (kl : BitVec 2) (ivb : BitVec 5) : decode (encode (.init kl ivb)) = .ok (.init kl ivb) := by
  revert kl ivb
  decide

/-- An accepted INIT runs on the registers at its acceptance. -/
theorem exec_accept_init (s : State) (kl : BitVec 2) (ivb : BitVec 5) :
    exec (.init kl ivb) (s.accept (encode (.init kl ivb))) =
      .next (initCommand kl ivb s.keyBytes (groupBlock s.ivReg) s.ioff s.bufreq
        (s.accept (encode (.init kl ivb)))) := by
  have hcur := s.accept_cur_of_ok (decode_encode_init kl ivb)
  rw [exec, execInit, State.recordFor_pending hcur rfl, State.sample]

/-- Every key length code but 3 declares a length (R102, R107). -/
theorem keyLength_of_ne_three {kl : BitVec 2} (h : kl ≠ 3) : keyLength kl = some (16 + 8 * kl.toNat) := by
  revert kl
  decide

/-- With legal widths and no instance open, the rounded size alone decides what INIT leaves (R202). -/
theorem initCommand_of_widths {s : State} {kl : BitVec 2} {len : Nat} (ho : s.phase ≠ .opened)
    (hkl : keyLength kl = some len) (key32 : List Byte) (iv16 : Block) (ioff : DWord) (bufreq : Word) :
    initCommand kl 16 key32 iv16 ioff bufreq s =
      if roundedCapacity bufreq < 16 ∨ Config.bufMax < roundedCapacity bufreq then
        s.clearStaging.fail .invalidBufferSize
      else s.clearStaging.construct (key32.take len) iv16 (roundedCapacity bufreq) ioff := by
  rw [initCommand, if_neg ho, hkl]
  exact if_neg (not_not_intro rfl)

/-- A size whose rounding is out of range is out of the range of R205 itself. -/
theorem roundedCapacity_illegal_iff (bufreq : Word) :
    (roundedCapacity bufreq < 16 ∨ Config.bufMax < roundedCapacity bufreq) ↔
      ¬ (16 ≤ bufreq.toNat ∧ bufreq.toNat ≤ 65551) := by
  rw [roundedCapacity, Config.blockBytes, Config.bufMax]
  omega

/-- A size in the range of R205 rounds to a whole number of blocks that fits the storage. -/
theorem roundedCapacity_legal {bufreq : Word} (h : 16 ≤ bufreq.toNat ∧ bufreq.toNat ≤ 65551) :
    16 ≤ roundedCapacity bufreq ∧ roundedCapacity bufreq ≤ 65536 ∧ roundedCapacity bufreq % 16 = 0 := by
  rw [roundedCapacity, Config.blockBytes]
  omega

/-- Settles O16: INIT tests the rounded size, and the range of R205 is what that test lets through. -/
theorem initBufferSizes : Obligations.InitBufferSizes := by
  intro s kl _ ho hkl
  refine ⟨_, exec_accept_init s kl 16, ?_⟩
  rw [initCommand_of_widths (by simpa using ho) (keyLength_of_ne_three hkl)]
  simp only [roundedCapacity_illegal_iff]
  by_cases hlegal : 16 ≤ s.bufreq.toNat ∧ s.bufreq.toNat ≤ 65551
  · rw [if_neg (not_not_intro hlegal), if_pos hlegal]
    obtain ⟨hmin, hmax, hmod⟩ := roundedCapacity_legal hlegal
    refine ⟨rfl, rfl, rfl, hmin, hmax, hmod, fun h => ?_⟩
    rw [State.construct_cap, h]
    rfl
  · rw [if_pos hlegal, if_neg hlegal]
    exact ⟨rfl, rfl⟩

/-! ### The commands that need an open instance -/

/-- The result code with which each phase but OPEN refuses a command that needs an open instance (R163, R167): WRITE
and FLUSH in all three phases (`writeCommand_refused`, `flushCommand_refused`), CLOSE in all but FAULT
(`closeCommand_refused`). -/
inductive Phase.RefusesWith : Phase → ErrCode → Prop where
  | uninit : Phase.RefusesWith .uninit .notOpen
  | closed : Phase.RefusesWith .closed .streamClosed
  | fault : Phase.RefusesWith .fault .instanceFaulted

theorem writeCommand_refused {P : Primitive} {n : Nat} {s : State} {rem : List Byte} {c : ErrCode}
    (hcur : s.cur = some (.write n rem .start)) (hc : s.phase.RefusesWith c) :
    writeCommand P n s = .next (s.fail c) := by
  rw [writeCommand, State.recordFor_pending hcur rfl]
  generalize s.phase = p at hc
  cases hc <;> rfl

theorem flushCommand_refused {P : Primitive} {s : State} {c : ErrCode}
    (hcur : s.cur = some (.flush .start)) (hc : s.phase.RefusesWith c) : flushCommand P s = .next (s.fail c) := by
  rw [flushCommand, State.recordFor_pending hcur rfl]
  generalize s.phase = p at hc
  cases hc <;> rfl

theorem closeCommand_refused {P : Primitive} {s : State} {c : ErrCode} (hcur : s.cur = some (.close .start))
    (hc : s.phase.RefusesWith c) (hfault : s.phase ≠ .fault) : closeCommand P s = .next (s.fail c) := by
  rw [closeCommand, State.recordFor_pending hcur rfl]
  generalize s.phase = p at hc hfault
  cases hc with
  | uninit | closed => rfl
  | fault => exact absurd rfl hfault

theorem decode_encode_close : decode (encode .close) = .ok .close := rfl

theorem exec_accept_write_refused {s : State} {n : Nat} {c : ErrCode} (hidle : s.cur = none)
    (hc : s.phase.RefusesWith c) (hlo : 1 ≤ n) (hhi : n ≤ 4) :
    exec (.write n) (s.accept (encode (.write n))) = .next { s with err := c } := by
  have hcur := s.accept_cur_of_ok (decode_encode_write hlo hhi)
  rw [exec, execWrite, writeCommand_refused hcur hc, State.fail, State.accept_finish hidle]

theorem exec_accept_flush_refused {s : State} {c : ErrCode} (hidle : s.cur = none) (hc : s.phase.RefusesWith c) :
    exec .flush (s.accept (encode .flush)) = .next { s with err := c } := by
  have hcur := s.accept_cur_of_ok decode_encode_flush
  rw [exec, execFlush, flushCommand_refused hcur hc, State.fail, State.accept_finish hidle]

theorem exec_accept_close_refused {s : State} {c : ErrCode} (hidle : s.cur = none) (hc : s.phase.RefusesWith c)
    (hfault : s.phase ≠ .fault) : exec .close (s.accept (encode .close)) = .next { s with err := c } := by
  have hcur := s.accept_cur_of_ok decode_encode_close
  rw [exec, execClose, closeCommand_refused hcur hc hfault, State.fail, State.accept_finish hidle]

/-- Settles O23: each phase refuses with its own code, CLOSE in FAULT apart. -/
theorem commandsOutsideAnOpenInstanceFail : Obligations.CommandsOutsideAnOpenInstanceFail := by
  refine fun s hidle => ⟨fun hphase => ?uninit, fun hphase => ?closed, fun hphase => ?fault⟩
  case uninit =>
    have hc : s.phase.RefusesWith .notOpen := hphase ▸ .uninit
    exact ⟨fun _ => exec_accept_write_refused hidle hc, exec_accept_flush_refused hidle hc,
      exec_accept_close_refused hidle hc (by simp [hphase])⟩
  case closed =>
    have hc : s.phase.RefusesWith .streamClosed := hphase ▸ .closed
    exact ⟨fun _ => exec_accept_write_refused hidle hc, exec_accept_flush_refused hidle hc,
      exec_accept_close_refused hidle hc (by simp [hphase])⟩
  case fault =>
    have hc : s.phase.RefusesWith .instanceFaulted := hphase ▸ .fault
    exact ⟨fun _ => exec_accept_write_refused hidle hc, exec_accept_flush_refused hidle hc⟩

/-! ### CLOSE in FAULT -/

/-- CLOSE of a faulted instance goes past its PROC and DRAIN stages (R212). -/
theorem closeCommand_faulted {P : Primitive} {s : State} (hcur : s.cur = some (.close .start))
    (hf : s.phase = .fault) : closeCommand P s = .next { s with phase := .closed }.succeed := by
  simp only [closeCommand, State.recordFor_pending hcur rfl, hf]

/-- Settles O24: FAULT entry has cleared the secrets already, which the invariant records. -/
theorem closeInFaultReleases : Obligations.CloseInFaultReleases := by
  refine fun s hidle hf => ⟨?_, fun h => h.secretsCleared (by simp [hf])⟩
  have hended (w : Word) :
      ({ s.accept w with phase := .closed }).succeed = { s with phase := .closed, err := .ok, cur := none } := rfl
  rw [exec, execClose, closeCommand_faulted (s.accept_cur_of_ok decode_encode_close) hf, hended, ← hidle]

end Sys2Proof.Machine
end

section
/-!
PROOFS. Command words (30_encoding.md R100 to R105): the fields a word must have to be a command's, the two round trips
between words and commands, and the opcode map's rows.
-/

namespace Sys2Proof.Machine

/-! ### The fields of a command word -/

/-- The fields that R101 to R103 ask of a command's word: its opcode, its operands, and 0 everywhere else. `decode`
finds exactly these (`decode_eq_ok_iff`). -/
inductive HasFields (w : Word) : Instr → Prop where
  | nop (hop : w.extractLsb 31 24 = 0x00#8) (hrest : w.extractLsb 23 0 = 0) : HasFields w .nop
  | init (hop : w.extractLsb 31 24 = 0x01#8) (hhigh : w.extractLsb 23 13 = 0) (hmid : w.extractLsb 7 2 = 0) :
      HasFields w (.init (w.extractLsb 1 0) (w.extractLsb 12 8))
  | write (hop : w.extractLsb 31 24 = 0x02#8) (hrest : w.extractLsb 23 2 = 0) :
      HasFields w (.write ((w.extractLsb 1 0).toNat + 1))
  | flush (hop : w.extractLsb 31 24 = 0x03#8) (hrest : w.extractLsb 23 0 = 0) : HasFields w .flush
  | close (hop : w.extractLsb 31 24 = 0x04#8) (hrest : w.extractLsb 23 0 = 0) : HasFields w .close
  | derive (hop : w.extractLsb 31 24 = 0x05#8) (hrest : w.extractLsb 23 0 = 0) : HasFields w .derive

theorem HasFields.of_decode {w : Word} {i : Instr} (h : decode w = .ok i) : HasFields w i := by
  unfold decode at h
  dsimp only at h
  split_ifs at h with hnop hrest hinit hrest hwrite hrest hflush hrest hclose hrest hderive hrest <;> cases h
  · exact .nop hnop hrest
  · exact .init hinit hrest.1 hrest.2
  · exact .write hwrite hrest
  · exact .flush hflush hrest
  · exact .close hclose hrest
  · exact .derive hderive hrest

theorem HasFields.decode {w : Word} {i : Instr} (h : HasFields w i) : decode w = .ok i := by
  cases h with
  | init hop hhigh hmid => simp [Sys2Proof.decode, hop, hhigh, hmid]
  | nop hop hrest | write hop hrest | flush hop hrest | close hop hrest | derive hop hrest =>
    simp [Sys2Proof.decode, hop, hrest]

theorem decode_eq_ok_iff {w : Word} {i : Instr} : decode w = .ok i ↔ HasFields w i :=
  ⟨HasFields.of_decode, HasFields.decode⟩

/-! ### Round trips -/

/-- Every well-formed command is found again in its word (R100 to R105). -/
theorem decode_encode {i : Instr} (h : i.wellFormed = true) : decode (encode i) = .ok i := by
  cases i with
  | nop => exact decode_encode_nop
  | init kl ivb => exact decode_encode_init kl ivb
  | write n =>
    obtain ⟨hlo, hhi⟩ : 1 ≤ n ∧ n ≤ 4 := by simpa [Instr.wellFormed] using h
    exact decode_encode_write hlo hhi
  | flush => exact decode_encode_flush
  | close => exact decode_encode_close
  | derive => exact decode_encode_derive

/-- Settles O1: one case for each command; a WRITE of 1 to 4 bytes fits its two bits. -/
theorem decodeEncodeRoundTrip : Obligations.DecodeEncodeRoundTrip :=
  fun _ h => decode_encode h

/-- The opcode and the bits below it hold the word. -/
theorem extractLsb_opcode_append (w : Word) : (w.extractLsb 31 24 ++ w.extractLsb 23 0 : Word) = w :=
  (BitVec.extractLsb'_append_extractLsb'_eq_extractLsb' rfl).trans BitVec.extractLsb'_eq_self

theorem extractLsb_write_append (w : Word) :
    (w.extractLsb 31 24 ++ w.extractLsb 23 2 ++ w.extractLsb 1 0 : Word) = w := by
  have hhigh : (w.extractLsb 31 24 ++ w.extractLsb 23 2 : BitVec 30) = w.extractLsb 31 2 :=
    BitVec.extractLsb'_append_extractLsb'_eq_extractLsb' rfl
  rw [hhigh]
  exact (BitVec.extractLsb'_append_extractLsb'_eq_extractLsb' rfl).trans BitVec.extractLsb'_eq_self

theorem extractLsb_init_append (w : Word) :
    (w.extractLsb 31 24 ++ w.extractLsb 23 13 ++ w.extractLsb 12 8 ++ w.extractLsb 7 2 ++ w.extractLsb 1 0 : Word) =
      w := by
  have h13 : (w.extractLsb 31 24 ++ w.extractLsb 23 13 : BitVec 19) = w.extractLsb 31 13 :=
    BitVec.extractLsb'_append_extractLsb'_eq_extractLsb' rfl
  have h8 : (w.extractLsb 31 13 ++ w.extractLsb 12 8 : BitVec 24) = w.extractLsb 31 8 :=
    BitVec.extractLsb'_append_extractLsb'_eq_extractLsb' rfl
  have h2 : (w.extractLsb 31 8 ++ w.extractLsb 7 2 : BitVec 30) = w.extractLsb 31 2 :=
    BitVec.extractLsb'_append_extractLsb'_eq_extractLsb' rfl
  rw [h13, h8, h2]
  exact (BitVec.extractLsb'_append_extractLsb'_eq_extractLsb' rfl).trans BitVec.extractLsb'_eq_self

theorem HasFields.wellFormed {w : Word} {i : Instr} (h : HasFields w i) : i.wellFormed = true := by
  cases h with
  | write hop hrest =>
    have hlt := (w.extractLsb 1 0).isLt
    simp only [Instr.wellFormed, decide_eq_true_eq]
    omega
  | _ => rfl

/-- The encoder writes the fields that the decoder read, side by side. -/
theorem HasFields.encode {w : Word} {i : Instr} (h : HasFields w i) : encode i = w := by
  cases h with
  | nop hop hrest | flush hop hrest | close hop hrest | derive hop hrest =>
    refine Eq.trans ?_ (extractLsb_opcode_append w)
    rw [hop, hrest]
    rfl
  | init hop hhigh hmid =>
    refine Eq.trans ?_ (extractLsb_init_append w)
    rw [hop, hhigh, hmid]
    rfl
  | write hop hrest =>
    refine Eq.trans ?_ (extractLsb_write_append w)
    rw [hop, hrest, Sys2Proof.encode, Nat.add_sub_cancel, BitVec.ofNat_toNat, BitVec.setWidth_eq]
    rfl

/-- Settles O2: the fields of a word that decodes are those the encoder writes. -/
theorem encodeDecodeRoundTrip : Obligations.EncodeDecodeRoundTrip :=
  fun _ _ h => ⟨(HasFields.of_decode h).wellFormed, (HasFields.of_decode h).encode⟩

/-! ### The opcode map -/

theorem encodedInItsRow (i : Instr) : Laws.EncodedInItsRow.Statement i := by
  cases i with
  | nop => exact Laws.EncodedInItsRow.nop
  | init kl ivb => exact Laws.EncodedInItsRow.init kl ivb
  | write n => exact Laws.EncodedInItsRow.write n
  | flush => exact Laws.EncodedInItsRow.flush
  | close => exact Laws.EncodedInItsRow.close
  | derive => exact Laws.EncodedInItsRow.derive

/-- A word that matches a row has the row's bits in every field that the row's mask covers (R104). -/
theorem OpcodeRow.field_of_matchesWord {r : OpcodeRow} {w : Word} (h : r.matchesWord w = true) (hi lo : Nat)
    (hmask : r.mask.extractLsb hi lo = BitVec.allOnes _) : w.extractLsb hi lo = r.pattern.extractLsb hi lo := by
  have hw : w &&& r.mask = r.pattern := by simpa [OpcodeRow.matchesWord] using h
  rw [← hw, BitVec.extractLsb_and, hmask, BitVec.and_allOnes]

/-- Every row's mask covers the opcode, and no two rows have the same one. -/
theorem opcodeRows_opcode :
    (∀ r ∈ opcodeRows, r.mask.extractLsb 31 24 = BitVec.allOnes _) ∧
      ∀ r ∈ opcodeRows, ∀ r' ∈ opcodeRows, r.pattern.extractLsb 31 24 = r'.pattern.extractLsb 31 24 → r = r' := by
  decide

theorem opcodeRow_unique {r r' : OpcodeRow} {w : Word} (hr : r ∈ opcodeRows) (hr' : r' ∈ opcodeRows)
    (h : r.matchesWord w = true) (h' : r'.matchesWord w = true) : r = r' := by
  obtain ⟨hmask, hdistinct⟩ := opcodeRows_opcode
  refine hdistinct r hr r' hr' ?_
  rw [← OpcodeRow.field_of_matchesWord h 31 24 (hmask r hr), ← OpcodeRow.field_of_matchesWord h' 31 24 (hmask r' hr')]

/-- A word that matches a row has the fields of a command with the row's mnemonic. -/
theorem OpcodeRow.hasFields_of_matchesWord {r : OpcodeRow} {w : Word} (hr : r ∈ opcodeRows)
    (h : r.matchesWord w = true) : ∃ i, HasFields w i ∧ i.mnemonic = r.mnemonic := by
  have hfield := OpcodeRow.field_of_matchesWord h
  simp only [opcodeRows, List.mem_cons, List.not_mem_nil, or_false] at hr
  obtain rfl | rfl | rfl | rfl | rfl | rfl := hr
  · exact ⟨_, .nop (hfield 31 24 rfl) (hfield 23 0 rfl), rfl⟩
  · exact ⟨_, .init (hfield 31 24 rfl) (hfield 23 13 rfl) (hfield 7 2 rfl), rfl⟩
  · exact ⟨_, .write (hfield 31 24 rfl) (hfield 23 2 rfl), rfl⟩
  · exact ⟨_, .flush (hfield 31 24 rfl) (hfield 23 0 rfl), rfl⟩
  · exact ⟨_, .close (hfield 31 24 rfl) (hfield 23 0 rfl), rfl⟩
  · exact ⟨_, .derive (hfield 31 24 rfl) (hfield 23 0 rfl), rfl⟩

/-- Settles O3: a word that decodes is its command's word, which matches the command's row; a row's mask covers the
fields that the command needs. -/
theorem decodeFollowsTheOpcodeMap : Obligations.DecodeFollowsTheOpcodeMap := by
  refine fun w => ⟨fun i h => ?decodes, fun r hr hmatch => ?row, fun r hr r' hr' => opcodeRow_unique hr hr',
    fun kl ivb h => ?init, fun n h => ?write⟩
  case decodes =>
    obtain ⟨r, hr, hmnemonic, hmatch⟩ := encodedInItsRow i
    rw [(HasFields.of_decode h).encode] at hmatch
    exact ⟨r, hr, hmatch, hmnemonic⟩
  case row =>
    obtain ⟨i, hfields, hmnemonic⟩ := OpcodeRow.hasFields_of_matchesWord hr hmatch
    exact ⟨i, hfields.decode, hmnemonic⟩
  case init => cases HasFields.of_decode h; exact ⟨rfl, rfl⟩
  case write => cases HasFields.of_decode h; rfl

/-- Settles O4: each of the six words has its command's fields. -/
theorem sampleWordsDecode : Obligations.SampleWordsDecode :=
  ⟨decode_encode_nop, decode_encode_init 2 16, decode_encode_write (n := 4) (by decide) (by decide),
    decode_encode_flush, decode_encode_close, decode_encode_derive⟩

end Sys2Proof.Machine
end

section
/-!
PROOFS. INIT (42_lifecycle.md R201 to R208): its checks in order, the instance it constructs, and what every initial
offset gives.
-/

namespace Sys2Proof.Machine

/-! ### The checks -/

theorem keyLength_three : keyLength 3 = none := rfl

/-- INIT where an instance is open (R202, first check). -/
theorem initCommand_of_opened {s : State} (ho : s.phase = .opened) (kl : BitVec 2) (ivb : BitVec 5) (key32 : List Byte)
    (iv16 : Block) (ioff : DWord) (bufreq : Word) :
    initCommand kl ivb key32 iv16 ioff bufreq s = s.clearStaging.fail .illegalState := by
  rw [initCommand, if_pos ho]

/-- INIT with a key or IV width it has no meaning for (R202, second check; R107). -/
theorem initCommand_of_badWidths {s : State} {kl : BitVec 2} {ivb : BitVec 5} (ho : s.phase ≠ .opened)
    (hbad : kl = 3 ∨ ivb ≠ 16) (key32 : List Byte) (iv16 : Block) (ioff : DWord) (bufreq : Word) :
    initCommand kl ivb key32 iv16 ioff bufreq s = s.clearStaging.fail .invalidKeyMaterial := by
  rw [initCommand, if_neg ho]
  by_cases hkl : kl = 3
  · rw [hkl, keyLength_three]
  · rw [keyLength_of_ne_three hkl]
    exact if_pos (hbad.resolve_left hkl)

/-- INIT from its record. -/
theorem exec_init {s : State} {kl : BitVec 2} {ivb : BitVec 5} {key32 : List Byte} {iv16 : Block} {ioff : DWord}
    {bufreq : Word} (hcur : s.cur = some (.init kl ivb key32 iv16 ioff bufreq)) :
    exec (.init kl ivb) s = .next (initCommand kl ivb key32 iv16 ioff bufreq s) := by
  rw [exec, execInit, State.recordFor_pending hcur rfl]

/-- Settles O6: with no instance open the widths are the first thing INIT checks. -/
theorem badWidthsDecodeButFail : Obligations.BadWidthsDecodeButFail := by
  refine fun s kl ivb hbad => ⟨decode_encode_init kl ivb, fun _ ho => ⟨_, exec_accept_init s kl ivb, ?_⟩⟩
  rw [initCommand_of_badWidths (by simpa using ho) hbad]
  rfl

/-! ### The result -/

/-- Settles O15: the three checks in their order, each with its own equation; the record the acceptance adds ends with
the command. -/
theorem initResult : Obligations.InitResult := by
  intro s kl ivb result
  have hrun (c : Option Pending) (key32 : List Byte) (iv16 : Block) (ioff : DWord) (bufreq : Word) :
      initCommand kl ivb key32 iv16 ioff bufreq { s with cur := c } = result key32 iv16 ioff bufreq := by
    simp only [result]
    by_cases ho : s.phase = .opened
    · rw [initCommand_of_opened (s := { s with cur := c }) ho, if_pos ho]
      rfl
    · rw [if_neg ho]
      by_cases hbad : kl = 3 ∨ ivb ≠ 16
      · rw [initCommand_of_badWidths (s := { s with cur := c }) ho hbad, if_pos hbad]
        rfl
      · obtain ⟨hkl, rfl⟩ : kl ≠ 3 ∧ ivb = 16 := by simpa using hbad
        rw [initCommand_of_widths (s := { s with cur := c }) ho (keyLength_of_ne_three hkl), if_neg hbad]
        rfl
  refine ⟨fun _ => ?_, fun key32 iv16 ioff bufreq hcur => ?_⟩
  · rw [exec_accept_init]
    exact congrArg _ (hrun _ _ _ _ _)
  · rw [exec_init hcur]
    exact congrArg _ (hrun s.cur key32 iv16 ioff bufreq)

/-! ### The initial offset -/

/-- Settles O17: the offset is the sampled one, whatever it is; at its largest value no byte is within the limit of
R165. -/
theorem initialOffsetSetsPadding : Obligations.InitialOffsetSetsPadding := by
  intro s kl _ ho hkl hmin hmax
  have hlegal : ¬ (roundedCapacity s.bufreq < 16 ∨ Config.bufMax < roundedCapacity s.bufreq) := by
    rw [roundedCapacity_illegal_iff]
    exact not_not_intro ⟨hmin, hmax⟩
  refine ⟨_, exec_accept_init s kl 16, ?_⟩
  rw [initCommand_of_widths (by simpa using ho) (keyLength_of_ne_three hkl), if_neg hlegal]
  refine ⟨rfl, rfl, rfl, rfl, rfl, fun hlast n hlo hhi => ?_⟩
  exact (writePastTheLimitIsRefused _ n rfl rfl hlo hhi).1 (by omega)

end Sys2Proof.Machine
end

section
/-!
PROOFS. The register window and the agents around the engine: what each access type does (10_state.md R20, 20_memory.md
R72), the fields of `STATUS` (R24 to R29), the host's accesses (R71 to R73, R280), the sink (R169) and the reset input
(R270 to R272), and how a step comes to run a command (R23, R150).
-/

namespace Sys2Proof.Machine

/-! ### Access types -/

theorem Reg.read_of_writeOnly {r : Reg} (h : r.access = .wo) (s : State) : r.read s = 0 := by
  cases r with
  | cmd | key _ | iv _ => rfl
  | _ => nomatch h

theorem Reg.read_write_of_readWrite {r : Reg} (h : r.access = .rw) (s : State) (v : Word) :
    r.read (r.write s v) = v := by
  cases r with
  | din | ioffLo | ioffHi | bufreq | tcntLo | tcntHi => rfl
  | tiv i => exact Vector.getElem_set_self i.isLt
  | _ => nomatch h

/-- What the value of a register is read from besides the register's own storage stays as it is in a write. -/
theorem Reg.read_write_of_ne {r r' : Reg} (h : r' ≠ r) (s : State) (v : Word) : r'.read (r.write s v) = r'.read s := by
  cases r with
  | din | ioffLo | ioffHi | bufreq | tcntLo | tcntHi =>
    cases r' <;> try rfl
    exact (h rfl).elim
  | tiv i => cases r' with
    | tiv j =>
      have hij : i.val ≠ j.val := fun hij => h (congrArg Reg.tiv (Fin.ext hij.symm))
      exact Vector.getElem_set_ne i.isLt j.isLt hij
    | _ => rfl
  | key i | iv i => cases r' <;> rfl
  | _ => rfl

/-- Settles O38: the window finds each register at its offset, so its access type decides. -/
theorem registerAccessTypes : Obligations.RegisterAccessTypes := by
  intro s r r' v
  simp only [regAt_offset, busRead_offset, busWrite_offset]
  refine ⟨trivial, fun h => Reg.read_of_writeOnly h s, fun h => Reg.read_write_of_readWrite h s v,
    fun h => Reg.read_write_of_ne h s v, fun h => Reg.write_of_readOnly h s v, ?_⟩
  refine ⟨?_, ?_, ?_, ?_, ?_, ?_, ?_, ?_, ?_, ?_⟩ <;> (intros; subst r; rfl)

/-! ### `STATUS` -/

/-- Each field of `STATUS` is found by dropping the fields below it (R24). -/
theorem State.statusWord_fields (s : State) :
    s.statusWord.extractLsb 1 0 = s.phase.code ∧ s.statusWord.extractLsb 3 2 = s.sstate ∧
      s.statusWord.getLsbD 4 = s.busy ∧ s.statusWord.getLsbD 5 = s.hold ∧
      s.statusWord.extractLsb 11 8 = s.err.code := by
  unfold State.statusWord BitVec.extractLsb
  refine ⟨BitVec.extractLsb'_append_eq_right, ?_, ?_, ?_, ?_⟩
  · rw [BitVec.extractLsb'_append_eq_of_le (by decide)]
    exact BitVec.extractLsb'_append_eq_right
  · iterate 3 rw [BitVec.getLsbD_append]
    cases s.busy <;> rfl
  · iterate 4 rw [BitVec.getLsbD_append]
    cases s.hold <;> rfl
  · iterate 5 rw [BitVec.extractLsb'_append_eq_of_le (by decide)]
    exact BitVec.extractLsb'_append_eq_right

/-- Settles O41: the fields of `STATUS` are the codes of what they show. -/
theorem statusFields : Obligations.StatusFields := by
  intro s
  obtain ⟨hphase, hsstate, hbusy, hhold, herr⟩ := s.statusWord_fields
  have hread : busRead s 0x08 = s.statusWord := busRead_offset s .status
  rw [hread, hphase, hsstate, hbusy, hhold, herr]
  refine ⟨by cases s.phase <;> rfl, ?_, by simp [State.busy, Option.isSome_iff_ne_none], rfl, by cases s.err <;> rfl⟩
  simp only [State.sstate, ← List.length_pos_iff]

/-! ### The host -/

theorem isTransaction_iff (o : BitVec 8) (bits : Nat) :
    isTransaction o bits = true ↔ bits = 32 ∧ o.toNat % 4 = 0 := by
  rw [isTransaction, decide_eq_true_iff]

/-- Settles O44: the two kinds of access are carried out as transactions only. -/
theorem hostReadsAndNonTransactions : Obligations.HostReadsAndNonTransactions := by
  refine fun s o bits => ⟨fun hop => ⟨fun htr => ?_, fun htr => ?_⟩, fun v hop htr => ?_⟩
  · simp only [hostStep, hop, if_pos ((isTransaction_iff o bits).mpr htr), State.hostRead]
  · simp only [hostStep, hop, if_neg (mt (isTransaction_iff o bits).mp htr)]
  · simp only [hostStep, hop, if_neg (mt (isTransaction_iff o bits).mp htr)]

/-- Settles O32: with nothing pending the write is the host's command (`State.hostCommand`). -/
theorem cmdWriteIsAccepted : Obligations.CmdWriteIsAccepted :=
  fun s v hop hidle =>
    ⟨hostStep_of_hostCommand ⟨hop, by simp [State.busy, hidle]⟩, fun _ h => s.sampleWord_of_ok h, s.accept_busy v⟩

/-- A `CMD` write stalls while a command is pending (R280). -/
theorem hostStep_stalls {s : State} {v : Word} (hop : s.nextHostOp = .access (.write Reg.cmd.offset 32 v))
    (hbusy : s.cur ≠ none) : hostStep s = .next s := by
  have htransaction : isTransaction Reg.cmd.offset 32 = true := rfl
  have hb : s.busy = true := by simpa [State.busy, Option.isSome_iff_ne_none] using hbusy
  simp [hostStep, hop, hb, htransaction]

/-- Settles O33: only the write to `CMD` looks at the pending record. -/
theorem cmdWriteStallsWhileBusy : Obligations.CmdWriteStallsWhileBusy := by
  refine fun s v => ⟨fun hop => ⟨hostStep_stalls hop, fun hidle => ?_⟩, fun o halign hne hop => ?_⟩
  · exact hostStep_of_hostCommand ⟨hop, by simp [State.busy, hidle]⟩
  · have hcmd : o ≠ Reg.cmd.offset := hne
    simp only [hostStep, hop, if_pos ((isTransaction_iff o 32).mpr ⟨rfl, halign⟩), if_neg hcmd]

/-! ### The sink and the reset input -/

/-- Settles O36: the two cases of the queue. -/
theorem sinkTakesTheFrontByte : Obligations.SinkTakesTheFrontByte := by
  refine fun s => ⟨fun b q hq => ?_, fun hq => ?_⟩
  · simp only [sinkStep, hq]
  · simp only [sinkStep, hq]

/-- Settles O45: before the first INIT every count is 0 and nothing is latched or buffered (R55). -/
theorem resetStateHasTheInvariant : Obligations.ResetStateHasTheInvariant :=
  State.reset_inv

/-- No register shows what the reset input leaves: the sink's log and the agents outside. -/
theorem busRead_resetBlock (s : State) (o : BitVec 8) : busRead s.resetBlock o = busRead State.reset o := by
  unfold busRead
  split
  · rename_i r _
    cases r <;> rfl
  · rfl

/-- Every register of the reset state reads 0 but `ID` (R55). -/
theorem busRead_reset (o : BitVec 8) : busRead State.reset o = if o = 0 then 0x4B435452 else 0 := by
  cases ho : regAt o with
  | none =>
    have hne : o ≠ 0 := by
      rintro rfl
      cases ho
    rw [busRead_reserved ho, if_neg hne]
  | some r =>
    obtain rfl := regAt_eq_some_iff.mp ho
    rw [busRead_offset]
    cases r with
    | key i | iv i | tiv i | div i => revert i; decide
    | _ => decide

/-- Settles O37: what the reset input leaves reads as the reset state does. -/
theorem resetClearsTheBlock : Obligations.ResetClearsTheBlock := by
  intro s hreset
  refine ⟨s.popAgent.resetBlock, by rw [step, hreset]; rfl, by simp, by simp, by simp, rfl, fun o => ?_⟩
  rw [busRead_resetBlock, busRead_reset]

/-! ### Running a command -/

/-- A pending command that does not hold runs at the engine's step (R150). -/
theorem engineStep_of_pending {s : State} {p : Pending} {i : Instr} (hcur : s.cur = some p) (hi : p.instr = some i)
    (hhold : s.hold = false) : engineStep s = exec i s := by
  simp [engineStep, hcur, hhold, hi]

/-- A record in its START stage never holds (R28). -/
theorem State.accept_hold (s : State) (w : Word) : (s.accept w).hold = false := by
  simp only [State.hold, State.accept_cur, State.sampleWord]
  cases decode w with
  | error e => rfl
  | ok i => cases i <;> rfl

/-- The word that stands in an instruction table at its full 32 bits is the command word (R100). -/
theorem ofNat_tableWord (w : Word) : BitVec.ofNat 32 (tableWord 32 w.toNat) = w := by
  rw [tableWord, Nat.mod_eq_of_lt w.isLt, BitVec.ofNat_toNat, BitVec.setWidth_eq]

theorem step_withFetchWord (s : State) (w : Word) : step (s.withFetchWord 32 w.toNat) = engineStep (s.accept w) := by
  rw [State.withFetchWord, ofNat_tableWord]
  rfl

@[simp] theorem State.popAgent_hold (s : State) : s.popAgent.hold = s.hold := by
  unfold State.popAgent; split <;> rfl

/-- Settles O30: the accepted command is at its START stage; the scheduling choice does not touch a pending one. -/
theorem stepRunsTheDecodedCommand : Obligations.StepRunsTheDecodedCommand := by
  refine ⟨fun s w i h => ?_, fun s p i ha hcur hi hhold => ?_⟩
  · rw [step_withFetchWord]
    exact engineStep_of_pending (s.accept_cur_of_ok h) (s.sample_instr i) (s.accept_hold w)
  · rw [step, ha]
    exact engineStep_of_pending (by simpa using hcur) hi (by simpa using hhold)

end Sys2Proof.Machine
end

section
/-!
PROOFS. What a WRITE does in an open instance (41_stream_transform.md R163 to R166): its loop ends with room left, holds
at a full buffer, or makes the one process and ends; and what is in the buffer after its bytes are appended.
-/

namespace Sys2Proof.Machine

/-! ### Appending -/

@[simp] theorem State.appended_pad (s : State) (rem : List Byte) : (s.appended rem).pad = s.pad := rfl
@[simp] theorem State.appended_outQ (s : State) (rem : List Byte) : (s.appended rem).outQ = s.outQ := rfl
@[simp] theorem State.appended_primLog (s : State) (rem : List Byte) : (s.appended rem).primLog = s.primLog := rfl

/-- The bytes that fit end within the capacity. -/
theorem State.fill_add_taken_le {s : State} (hfill : s.fill ≤ s.cap) (rem : List Byte) :
    s.fill + (rem.take (s.cap - s.fill)).length ≤ s.cap := by
  rw [List.length_take]
  omega

/-- Each appended byte stands at its index (R163). -/
theorem State.appended_read_new {s : State} {rem : List Byte} (hwf : s.bufIn.wf = true) (hfill : s.fill ≤ s.cap)
    (hcap : s.cap ≤ Config.bufMax) {k : Nat} {b : Byte} (hk : k < s.cap - s.fill) (hb : rem[k]? = some b) :
    (s.appended rem).bufIn.read (s.fill + k) = b := by
  have hfit := s.fill_add_taken_le hfill rem
  rw [State.appended, Memory.read_writeList hwf (by omega), if_pos (by omega), Nat.add_sub_cancel_left,
    List.getD_eq_getElem?_getD, List.getElem?_take_of_lt hk, hb, Option.getD_some]

/-- Appending leaves every other index as it was. -/
theorem State.appended_read_other {s : State} {rem : List Byte} (hwf : s.bufIn.wf = true) (hfill : s.fill ≤ s.cap)
    (hcap : s.cap ≤ Config.bufMax) {i : Nat} (hi : i < s.fill ∨ (s.appended rem).fill ≤ i) :
    (s.appended rem).bufIn.read i = s.bufIn.read i := by
  have hfit := s.fill_add_taken_le hfill rem
  rw [State.appended] at hi ⊢
  rw [Memory.read_writeList hwf (by omega)]
  split
  · rw [List.getD_eq_getElem?_getD, List.getElem?_eq_none (by dsimp only at hi; omega), Option.getD_none]
  · rfl

/-- The data bytes of a WRITE are the bytes of `DIN` in order (R77, R103). -/
theorem State.dinBytes_getElem? (s : State) {n k : Nat} (hn : n ≤ 4) (hk : k < n) :
    (s.dinBytes n)[k]? = some (s.din.extractLsb' (24 - 8 * k) 8) := by
  rw [State.dinBytes, List.getElem?_take_of_lt hk]
  have hk4 : k < 4 := by omega
  interval_cases k <;> rfl

/-! ### The process of a state -/

/-- The state that a completed process leaves (R161; `process_eq_processed`). -/
def State.processed (P : Primitive) (s : State) : State :=
  { s with
    outQ := s.outQ ++ streamXor P s.key s.biv s.off.toNat s.staged
    off := s.off + BitVec.ofNat 64 s.stagedCount
    fill := (s.off + BitVec.ofNat 64 s.stagedCount).toNat % Config.blockBytes
    primLog := s.primLog ++ s.counterBlocks }

/-- The state that a failed process leaves: the invocations made are recorded (R159; `process_eq_processed`). -/
def State.failedCalls (P : Primitive) (s : State) : State :=
  { s with primLog := s.primLog ++ s.counterBlocks.take (callsMade P s.primLog.length s.blockCount) }

theorem process_eq_processed (P : Primitive) {s : State} (hdata : s.fill ≠ s.pad) (hfit : s.fill ≤ Config.bufMax) :
    process P s =
      if callsSucceed P s.primLog.length s.blockCount then .done (s.processed P) else .failed (s.failedCalls P) :=
  process_eq P hdata hfit

/-- Invocations that are to be made at all make at least one. -/
theorem callsMade_pos (P : Primitive) (start : Nat) {n : Nat} (hn : 1 ≤ n) : 1 ≤ callsMade P start n := by
  obtain ⟨m, rfl⟩ : ∃ m, n = m + 1 := ⟨n - 1, by omega⟩
  rw [callsMade]
  split <;> omega

/-- A failed process records between one invocation and one for each block. -/
theorem State.failedCalls_primLog (P : Primitive) {s : State} (hblocks : 1 ≤ s.blockCount) :
    ∃ calls, (s.failedCalls P).primLog = s.primLog ++ calls ∧ 1 ≤ calls.length ∧ calls.length ≤ s.blockCount := by
  have hpos := callsMade_pos P s.primLog.length hblocks
  have hle := callsMade_le P s.primLog.length s.blockCount
  refine ⟨_, rfl, ?_, ?_⟩ <;> rw [List.length_take, State.length_counterBlocks] <;> omega

/-! ### A full buffer -/

/-- A full buffer is a whole number of blocks (R205). -/
theorem State.BaseInv.blockCount_of_full {s : State} (h : s.BaseInv) (ho : s.phase = .opened) (hfull : s.fill = s.cap) :
    s.blockCount = s.cap / 16 := by
  obtain ⟨-, -, hmod⟩ := h.capRange (by simp [ho])
  rw [State.blockCount, Config.blockBytes, hfull]
  omega

/-- After the process of a full buffer the stream stands at a block's start, so the buffer is empty. -/
theorem State.BaseInv.processed_fill {s : State} (h : s.BaseInv) (ho : s.phase = .opened) (hfull : s.fill = s.cap)
    (P : Primitive) : (s.processed P).fill = 0 := by
  obtain ⟨-, -, hmod⟩ := h.capRange (by simp [ho])
  have hdata := h.pad_lt_of_full ho hfull
  have hoff := s.off_eq
  have hadv := h.toNat_advance
  rw [State.stagedCount] at hadv
  change (s.off + BitVec.ofNat 64 (s.fill - s.pad)).toNat % 16 = 0
  rw [hadv]
  omega

/-! ### The loop -/

theorem writeLoop_of_room {P : Primitive} {n rounds : Nat} {rem : List Byte} {s : State} (hcap : s.cap ≤ Config.bufMax)
    (hroom : (s.appended rem).fill ≠ s.cap) :
    writeLoop P n (rounds + 1) rem s = .next (s.appended rem).succeed := by
  rw [writeLoop, appendWhile_eq_appended rem hcap]
  exact if_neg hroom

theorem writeLoop_of_queued {P : Primitive} {n rounds : Nat} {rem : List Byte} {s : State}
    (hcap : s.cap ≤ Config.bufMax) (hfull : (s.appended rem).fill = s.cap) (hq : s.outQ ≠ []) :
    writeLoop P n (rounds + 1) rem s =
      .next { s.appended rem with cur := some (.write n (rem.drop (s.cap - s.fill)) .run) } := by
  rw [writeLoop, appendWhile_eq_appended rem hcap]
  exact (if_pos hfull).trans (if_neg hq)

/-- The loop at a full buffer with the output queue empty: one process, after which the rest has room (R164, R166). -/
theorem writeLoop_of_full {P : Primitive} {n rounds : Nat} {rem : List Byte} {s : State} (h : WriteReady s rem)
    (hfull : (s.appended rem).fill = s.cap) (hq : s.outQ = []) :
    writeLoop P n (rounds + 2) rem s =
      if callsSucceed P s.primLog.length (s.cap / 16) then
        .next (((s.appended rem).processed P).appended (rem.drop (s.cap - s.fill))).succeed
      else .next ((s.appended rem).failedCalls P).enterFault := by
  obtain ⟨hb, ho, hshort, -⟩ := h.appended
  obtain ⟨hmin, -, -⟩ := h.base.capRange (by simp [h.phase])
  have hdata := hb.pad_lt_of_full ho hfull
  have hblocks : (s.appended rem).blockCount = s.cap / 16 := hb.blockCount_of_full ho hfull
  have hfit : (s.appended rem).fill ≤ Config.bufMax := hfull ▸ h.cap_le
  have hprocess := process_eq_processed P (by omega) hfit
  rw [hblocks, State.appended_primLog] at hprocess
  rw [writeLoop, appendWhile_eq_appended rem h.cap_le]
  refine (if_pos hfull).trans ((if_pos hq).trans ?_)
  by_cases hcalls : callsSucceed P s.primLog.length (s.cap / 16) = true
  · rw [hprocess, if_pos hcalls, if_pos hcalls]
    refine writeLoop_of_room h.cap_le ?_
    rw [State.appended_fill, hb.processed_fill ho hfull]
    change 0 + min (s.cap - 0) _ ≠ s.cap
    omega
  · rw [hprocess, if_neg hcalls, if_neg hcalls]

/-! ### An accepted WRITE -/

/-- An accepted WRITE within the offset limit runs its loop on the bytes of `DIN`. -/
theorem exec_accept_write {s : State} {n : Nat} (ho : s.phase = .opened) (hlo : 1 ≤ n) (hhi : n ≤ 4)
    (hlimit : s.off.toNat + (s.fill - s.pad) + n ≤ 2 ^ 64 - 1) :
    exec (.write n) (s.accept (encode (.write n))) =
      writeLoop Config.primitive n 2 (s.dinBytes n) (s.accept (encode (.write n))) := by
  have hcur := s.accept_cur_of_ok (decode_encode_write hlo hhi)
  have hwithin : ¬ (s.accept (encode (.write n))).pastOffsetLimit (s.dinBytes n).length = true := by
    rw [State.pastOffsetLimit_iff, s.length_dinBytes hhi]
    exact Nat.not_lt.mpr hlimit
  rw [exec, execWrite, writeCommand_start hcur ho, if_neg hwithin]

/-- Settles O19: with room for its bytes the WRITE ends once they are appended. -/
theorem writeAppendsItsBytes : Obligations.WriteAppendsItsBytes := by
  intro s n hidle ho hlo hhi hlimit hroom hcap hwf
  have hlen := s.length_dinBytes hhi
  have hfill : (s.appended (s.dinBytes n)).fill = s.fill + n := by
    rw [State.appended_fill, hlen]
    omega
  refine ⟨(s.appended (s.dinBytes n)).bufIn, ?_, fun k hk => ?_, fun i hi => ?_⟩
  · rw [exec_accept_write ho hlo hhi hlimit, ← hfill]
    refine (writeLoop_of_room (s := s.accept _) hcap ?_).trans ?_
    · change (s.appended (s.dinBytes n)).fill ≠ s.cap
      omega
    · change Host.Outcome.next { s.appended (s.dinBytes n) with err := .ok, cur := none } = _
      rw [← hidle]
      rfl
  · exact State.appended_read_new hwf (by omega) hcap (by omega) (s.dinBytes_getElem? hhi hk)
  · exact State.appended_read_other hwf (by omega) hcap (by rwa [hfill])

/-- Settles O20: the loop appends what fits and finds the queue in its way. -/
theorem writeHoldsAtAFullBuffer : Obligations.WriteHoldsAtAFullBuffer := by
  intro s n _ ho hlo hhi hlimit hroom hfills hcap hwf hq
  have hlen := s.length_dinBytes hhi
  have hfill : (s.appended (s.dinBytes n)).fill = s.cap := by
    rw [State.appended_fill, hlen]
    omega
  refine ⟨(s.appended (s.dinBytes n)).bufIn, ?_, fun k hk => ?_, fun i hi => ?_⟩
  · rw [exec_accept_write ho hlo hhi hlimit]
    refine (writeLoop_of_queued (s := s.accept _) hcap hfill hq).trans ?_
    change Host.Outcome.next
      { s.appended (s.dinBytes n) with
        fill := (s.appended (s.dinBytes n)).fill
        cur := some (.write n ((s.dinBytes n).drop (s.cap - s.fill)) .run) } = _
    rw [hfill]
    rfl
  · exact State.appended_read_new hwf (by omega) hcap hk (s.dinBytes_getElem? hhi (by omega))
  · exact State.appended_read_other hwf (by omega) hcap (by rwa [hfill])

/-! ### The process of a WRITE -/

/-- The counter blocks of a full buffer (R155, R159; `WriteReady.counterBlocks_of_full`). -/
def State.fullBlocks (s : State) : List Block :=
  (List.range (s.cap / 16)).map fun j => counterBlock s.biv (s.off.toNat / 16 + j)

@[simp] theorem State.length_fullBlocks (s : State) : s.fullBlocks.length = s.cap / 16 := by
  simp [State.fullBlocks]

theorem WriteReady.counterBlocks_of_full {s : State} {rem : List Byte} (h : WriteReady s rem)
    (hfull : (s.appended rem).fill = s.cap) : (s.appended rem).counterBlocks = s.fullBlocks := by
  rw [State.counterBlocks, h.appended.base.blockCount_of_full h.phase hfull]
  rfl

/-- What the process of a full buffer leaves (R161). -/
theorem WriteReady.processed_of_full {s : State} {rem : List Byte} (h : WriteReady s rem)
    (hfull : (s.appended rem).fill = s.cap) (hq : s.outQ = []) (P : Primitive) :
    (s.appended rem).processed P =
      { s.appended rem with
        outQ := streamXor P s.key s.biv s.off.toNat (s.staged ++ rem.take (s.cap - s.fill))
        off := s.off + BitVec.ofNat 64 (s.cap - s.pad)
        fill := 0
        primLog := s.primLog ++ s.fullBlocks } := by
  have hzero := h.appended.base.processed_fill h.phase hfull P
  have hcount : (s.appended rem).stagedCount = s.cap - s.pad := by rw [State.stagedCount, hfull, State.appended_pad]
  rw [State.processed] at hzero ⊢
  dsimp only at hzero
  rw [hzero, hcount, h.staged_appended, h.counterBlocks_of_full hfull, State.appended_outQ, hq, List.nil_append]
  rfl

/-- Bytes appended to an empty buffer are what it holds. -/
theorem State.readFrom_appended {s : State} {rem : List Byte} (hwf : s.bufIn.wf = true) (hzero : s.fill = 0)
    (hfits : rem.length ≤ s.cap) (hcap : s.cap ≤ Config.bufMax) :
    (s.appended rem).fill = rem.length ∧ (s.appended rem).bufIn.readFrom 0 rem.length = rem := by
  have hall : rem.take (s.cap - 0) = rem := List.take_of_length_le (by omega)
  rw [State.appended, hzero, hall]
  exact ⟨Nat.zero_add _, Memory.readFrom_writeList hwf (by omega)⟩

/-- The offset after the process of a full buffer stays within its range. -/
theorem WriteReady.toNat_off_of_full {s : State} {rem : List Byte} (h : WriteReady s rem)
    (hfull : (s.appended rem).fill = s.cap) :
    (s.off + BitVec.ofNat 64 (s.cap - s.pad)).toNat = s.off.toNat + (s.cap - s.pad) := by
  have hadv := h.appended.base.toNat_advance
  rwa [State.stagedCount, hfull] at hadv

/-- The loop at a full buffer when no invocation fails: the rest of the bytes stands from index 0 on (R164). -/
theorem writeLoop_of_full_done {P : Primitive} {n rounds : Nat} {rem : List Byte} {s : State} (h : WriteReady s rem)
    (hfull : (s.appended rem).fill = s.cap) (hq : s.outQ = [])
    (hcalls : callsSucceed P s.primLog.length (s.cap / 16) = true) :
    ∃ m, m.readFrom 0 (rem.drop (s.cap - s.fill)).length = rem.drop (s.cap - s.fill) ∧
      writeLoop P n (rounds + 2) rem s = .next
        { s with
          outQ := streamXor P s.key s.biv s.off.toNat (s.staged ++ rem.take (s.cap - s.fill))
          off := s.off + BitVec.ofNat 64 (s.cap - s.pad), fill := (rem.drop (s.cap - s.fill)).length, bufIn := m
          primLog := s.primLog ++ s.fullBlocks, err := .ok, cur := none } := by
  obtain ⟨hmin, -, -⟩ := h.base.capRange (by simp [h.phase])
  have hready := h.appended
  have hshort := hready.short
  set rest := rem.drop (s.cap - s.fill) with hrest
  have hu := h.processed_of_full hfull hq P
  set u := (s.appended rem).processed P with hudef
  have hucap : u.cap = s.cap := rfl
  obtain ⟨hfill, hread⟩ := State.readFrom_appended (s := u) (rem := rest) hready.base.bufferWf (by rw [hu])
    (by omega) h.cap_le
  refine ⟨(u.appended rest).bufIn, hread, ?_⟩
  rw [writeLoop_of_full h hfull hq, if_pos hcalls, ← hudef, ← hrest, ← hfill, hu]
  rfl

/-- The loop at a full buffer when an invocation fails (R235). -/
theorem writeLoop_of_full_failed {P : Primitive} {n rounds : Nat} {rem : List Byte} {s : State} (h : WriteReady s rem)
    (hfull : (s.appended rem).fill = s.cap) (hq : s.outQ = [])
    (hcalls : ¬ callsSucceed P s.primLog.length (s.cap / 16) = true) :
    writeLoop P n (rounds + 2) rem s = .next
      { s with
        phase := .fault, key := [], biv := 0, bufIn := [], fill := s.cap, err := .primitiveFailure, cur := none
        primLog := s.primLog ++ s.fullBlocks.take (callsMade P s.primLog.length (s.cap / 16)) } := by
  have hcount : (s.appended rem).blockCount = s.cap / 16 := h.appended.base.blockCount_of_full h.phase hfull
  rw [writeLoop_of_full h hfull hq, if_neg hcalls, State.failedCalls, h.counterBlocks_of_full hfull, hcount,
    State.appended_primLog, State.enterFault, State.release]
  dsimp only
  rw [hfull]
  rfl

/-- Settles O21: a just accepted WRITE and a held one run the same loop, the held one with nothing that fits. -/
theorem writeProcessesAFullBuffer : Obligations.WriteProcessesAFullBuffer := by
  intro s n hinv ho hq P blocks processed
  have hlen : blocks.length = s.cap / 16 := s.length_fullBlocks
  have hrun (c : Option Pending) (rem : List Byte) (h : WriteReady { s with cur := c } rem)
      (hfull : (s.appended rem).fill = s.cap) :
      ∃ t, writeLoop P n 2 rem { s with cur := c } = .next t ∧
        processed (rem.take (s.cap - s.fill)) (rem.drop (s.cap - s.fill)) t := by
    simp only [processed, hlen]
    by_cases hcalls : callsSucceed P s.primLog.length (s.cap / 16) = true
    · obtain ⟨m, hread, hloop⟩ := writeLoop_of_full_done (n := n) (rounds := 0) h hfull hq hcalls
      refine ⟨_, hloop, ?_⟩
      rw [if_pos hcalls]
      exact ⟨rfl, h.toNat_off_of_full hfull, hread⟩
    · refine ⟨_, writeLoop_of_full_failed h hfull hq hcalls, ?_⟩
      rw [if_neg hcalls]
      rfl
  refine ⟨fun hidle hlo hhi hlimit hfills => ?accepted, fun rem hcur => ?held⟩
  case accepted =>
    have hlen := s.length_dinBytes hhi
    have hfill := hinv.fill_le_cap
    rw [exec_accept_write ho hlo hhi hlimit]
    refine hrun _ _ ⟨(hinv.accept hidle (encode (.write n))).base, ho, by omega, ?_⟩ ?_
    · rw [hlen]
      exact hlimit
    · rw [State.appended_fill, hlen]
      omega
  case held =>
    have hp := hinv.pendingWf
    rw [State.pendingOk, hcur] at hp
    obtain ⟨-, hshort, hfull, hlimit⟩ := hp
    have hnone : s.cap - s.fill = 0 := by omega
    have hfull' : (s.appended rem).fill = s.cap := by
      rw [State.appended_fill]
      omega
    have h := hrun s.cur rem ⟨hinv.base, ho, hshort, hlimit⟩ hfull'
    rw [hnone, List.take_zero, List.drop_zero] at h
    rwa [exec, execWrite, writeCommand_run hcur]

/-! ### At most one process -/

/-- Everything WRITE can do from its record under the invariant: a refusal with a code of the error matrix (R232), or
its loop. -/
theorem writeCommand_cases (P : Primitive) {n : Nat} {s : State} {rem : List Byte} {stage : WriteStage} (h : s.Inv)
    (hcur : s.cur = some (.write n rem stage)) :
    (∃ c ∈ allowedCodes (.write n rem stage) s.phase, writeCommand P n s = .next (s.fail c)) ∨
    (WriteReady s rem ∧ (stage = .run → s.fill = s.cap) ∧ writeCommand P n s = writeLoop P n 2 rem s) := by
  have hp := h.pendingWf
  rw [State.pendingOk, hcur] at hp
  cases stage with
  | start =>
    have hrefused (c : ErrCode) (hc : s.phase.RefusesWith c) := writeCommand_refused (P := P) hcur hc
    cases hphase : s.phase with
    | uninit => exact .inl ⟨_, List.mem_singleton.mpr rfl, hrefused _ (hphase ▸ .uninit)⟩
    | closed => exact .inl ⟨_, List.mem_singleton.mpr rfl, hrefused _ (hphase ▸ .closed)⟩
    | fault => exact .inl ⟨_, List.mem_singleton.mpr rfl, hrefused _ (hphase ▸ .fault)⟩
    | opened =>
      rw [writeCommand_start hcur hphase]
      by_cases hpast : s.pastOffsetLimit rem.length = true
      · exact .inl ⟨.offsetLimit, List.mem_cons_self, if_pos hpast⟩
      · refine .inr ⟨⟨h.base, hphase, hp, ?_⟩, nofun, if_neg hpast⟩
        simpa [State.pastOffsetLimit] using hpast
  | run =>
    obtain ⟨ho, hshort, hfull, hlimit⟩ := hp
    exact .inr ⟨⟨h.base, ho, hshort, hlimit⟩, fun _ => hfull, writeCommand_run hcur⟩

/-- Everything the loop of a WRITE can do, in the states it answers: it ends with room left, holds, or makes the one
process and ends. -/
theorem WriteReady.loop_cases {P : Primitive} {n rounds : Nat} {rem : List Byte} {s : State} (h : WriteReady s rem) :
    ((s.appended rem).fill ≠ s.cap ∧ writeLoop P n (rounds + 2) rem s = .next (s.appended rem).succeed) ∨
    ((s.appended rem).fill = s.cap ∧ s.outQ ≠ [] ∧ writeLoop P n (rounds + 2) rem s =
      .next { s.appended rem with cur := some (.write n (rem.drop (s.cap - s.fill)) .run) }) ∨
    ((s.appended rem).fill = s.cap ∧ s.outQ = [] ∧
      ((callsSucceed P s.primLog.length (s.cap / 16) = true ∧ writeLoop P n (rounds + 2) rem s =
          .next (((s.appended rem).processed P).appended (rem.drop (s.cap - s.fill))).succeed) ∨
       (callsSucceed P s.primLog.length (s.cap / 16) = false ∧ writeLoop P n (rounds + 2) rem s =
          .next ((s.appended rem).failedCalls P).enterFault))) := by
  by_cases hfull : (s.appended rem).fill = s.cap
  · by_cases hq : s.outQ = []
    · refine .inr (.inr ⟨hfull, hq, ?_⟩)
      rw [writeLoop_of_full h hfull hq]
      cases callsSucceed P s.primLog.length (s.cap / 16) with
      | true => exact .inl ⟨rfl, rfl⟩
      | false => exact .inr ⟨rfl, rfl⟩
    · exact .inr (.inl ⟨hfull, hq, writeLoop_of_queued h.cap_le hfull hq⟩)
  · exact .inl ⟨hfull, writeLoop_of_room h.cap_le hfull⟩

/-- A third round is never reached (R166; log 14). -/
theorem WriteReady.loop_rounds {P : Primitive} {rem : List Byte} {s : State} (h : WriteReady s rem) (n rounds : Nat) :
    writeLoop P n (rounds + 2) rem s = writeLoop P n 2 rem s := by
  by_cases hfull : (s.appended rem).fill = s.cap
  · by_cases hq : s.outQ = []
    · rw [writeLoop_of_full h hfull hq, writeLoop_of_full (rounds := 0) h hfull hq]
    · rw [writeLoop_of_queued h.cap_le hfull hq, writeLoop_of_queued h.cap_le hfull hq]
  · rw [writeLoop_of_room h.cap_le hfull, writeLoop_of_room h.cap_le hfull]

/-- The invocations of a WRITE's loop, and that it ends where it makes any (R166). -/
theorem WriteReady.loop_calls {P : Primitive} {n : Nat} {rem : List Byte} {s t : State} (h : WriteReady s rem)
    (hs : writeLoop P n 2 rem s = .next t) :
    (t.primLog = s.primLog ∧ t.off = s.off) ∨
      (t.cur = none ∧ ∃ calls, t.primLog = s.primLog ++ calls ∧ 1 ≤ calls.length ∧ calls.length ≤ s.cap / 16) := by
  obtain ⟨-, hloop⟩ | ⟨-, -, hloop⟩ | ⟨hfull, -, hprocess⟩ := h.loop_cases (P := P) (n := n) (rounds := 0)
  · obtain rfl := Host.Outcome.next.inj (hloop.symm.trans hs)
    exact .inl ⟨rfl, rfl⟩
  · obtain rfl := Host.Outcome.next.inj (hloop.symm.trans hs)
    exact .inl ⟨rfl, rfl⟩
  · obtain ⟨hmin, -, -⟩ := h.base.capRange (by simp [h.phase])
    have hblocks : (s.appended rem).blockCount = s.cap / 16 := h.appended.base.blockCount_of_full h.phase hfull
    rw [← hblocks]
    obtain ⟨-, hloop⟩ | ⟨-, hloop⟩ := hprocess
    · obtain rfl := Host.Outcome.next.inj (hloop.symm.trans hs)
      refine .inr ⟨rfl, (s.appended rem).counterBlocks, rfl, ?_, ?_⟩ <;> rw [State.length_counterBlocks]
      omega
    · obtain rfl := Host.Outcome.next.inj (hloop.symm.trans hs)
      exact .inr ⟨rfl, State.failedCalls_primLog P (by omega)⟩

/-- Settles O22: the loop's cases bound its invocations, and none of them reaches a third round. -/
theorem writeMakesAtMostOneProcess : Obligations.WriteMakesAtMostOneProcess := by
  refine ⟨fun s t n rem stage h hcur hs => ?_, fun P s n rounds rem h ho hshort hlimit => ?_⟩
  · rw [exec, execWrite] at hs
    obtain ⟨c, -, hfail⟩ | ⟨hready, -, hloop⟩ := writeCommand_cases Config.primitive h hcur
    · obtain rfl := Host.Outcome.next.inj (hfail.symm.trans hs)
      exact .inl ⟨rfl, rfl⟩
    · exact hready.loop_calls (hloop.symm.trans hs)
  · exact WriteReady.loop_rounds ⟨h.base, ho, hshort, hlimit⟩ n rounds

end Sys2Proof.Machine
end

section
/-!
PROOFS. What FLUSH and CLOSE do in an open instance (41_stream_transform.md R167, 42_lifecycle.md R209): they wait for
the sink, process what is staged, and complete once the sink has taken everything.
-/

namespace Sys2Proof.Machine

/-! ### The stages -/

theorem drainStage_of_queued {s : State} (hq : s.outQ ≠ []) (record : DrainStage → Pending) (finish : State → State) :
    drainStage record finish s = .next { s with cur := some (record .drain) } := by
  rw [drainStage, if_neg hq]

theorem procStage_of_queued {s : State} (hdata : s.pad < s.fill) (hq : s.outQ ≠ []) (P : Primitive)
    (record : DrainStage → Pending) (finish : State → State) :
    procStage P record finish s = .next { s with cur := some (record .proc) } := by
  rw [procStage, if_pos hdata, if_neg hq]

/-- The process of staged data queues as many bytes, so it is followed by a wait for the sink. -/
theorem State.processed_outQ_ne_nil {s : State} (hdata : s.pad < s.fill) (P : Primitive) :
    (s.processed P).outQ ≠ [] := by
  have hlen : (s.processed P).outQ.length = s.outQ.length + s.stagedCount := by simp [State.processed]
  rw [State.stagedCount] at hlen
  rw [← List.length_pos_iff]
  omega

/-- The PROC stage with data staged and the output queue empty (R154, R160, R161). -/
theorem procStage_of_data {s : State} (hdata : s.pad < s.fill) (hfit : s.fill ≤ Config.bufMax) (hq : s.outQ = [])
    (P : Primitive) (record : DrainStage → Pending) (finish : State → State) :
    procStage P record finish s =
      if callsSucceed P s.primLog.length s.blockCount then
        .next { s.processed P with cur := some (record .drain) }
      else .next (s.failedCalls P).enterFault := by
  rw [procStage, if_pos hdata, if_pos hq, process_eq_processed P (by omega) hfit]
  by_cases hcalls : callsSucceed P s.primLog.length s.blockCount = true
  · rw [if_pos hcalls, if_pos hcalls]
    exact drainStage_of_queued (State.processed_outQ_ne_nil hdata P) record finish
  · rw [if_neg hcalls, if_neg hcalls]

theorem exec_accept_flush {s : State} (ho : s.phase = .opened) :
    exec .flush (s.accept (encode .flush)) =
      procStage Config.primitive .flush State.succeed (s.accept (encode .flush)) := by
  have hcur := s.accept_cur_of_ok decode_encode_flush
  simp only [exec, execFlush, flushCommand, State.recordFor_pending hcur rfl, State.sample, State.accept_phase, ho]

theorem exec_accept_close {s : State} (ho : s.phase = .opened) :
    exec .close (s.accept (encode .close)) =
      procStage Config.primitive .close State.closeInstance (s.accept (encode .close)) := by
  have hcur := s.accept_cur_of_ok decode_encode_close
  simp only [exec, execClose, closeCommand, State.recordFor_pending hcur rfl, State.sample, State.accept_phase, ho]

/-! ### Nothing to do, and waiting -/

/-- Settles O26: both stages pass at once, and the end of the command clears what R210 says. -/
theorem closeWithNothingStaged : Obligations.CloseWithNothingStaged := by
  intro s hidle ho hpad hq
  rw [exec_accept_close ho, procStage_of_nothing (s := s.accept _) hpad, drainStage_of_empty (s := s.accept _) hq,
    State.closeInstance]
  change Host.Outcome.next { s with phase := .closed, key := [], biv := 0, bufIn := [], err := .ok, cur := none } = _
  rw [← hidle]

/-- Settles O28: the queue stops the PROC stage where data is staged, and the DRAIN stage where none is. -/
theorem flushAndCloseWaitForTheSink : Obligations.FlushAndCloseWaitForTheSink := by
  intro s _ ho hq
  have hnothing (h : s.fill ≤ s.pad) (w : Word) (record : DrainStage → Pending) (finish : State → State) :
      procStage Config.primitive record finish (s.accept w) = .next { s with cur := some (record .drain) } :=
    (if_neg (Nat.not_lt.mpr h)).trans (drainStage_of_queued (s := s.accept w) hq record finish)
  refine ⟨fun hdata => ?_, fun h => ?_⟩ <;> rw [exec_accept_flush ho, exec_accept_close ho]
  · exact ⟨procStage_of_queued (s := s.accept _) hdata hq _ _ _, procStage_of_queued (s := s.accept _) hdata hq _ _ _⟩
  · exact ⟨hnothing h _ _ _, hnothing h _ _ _⟩

/-! ### Staged data -/

/-- Settles O27: just accepted or held in PROC, both commands run the PROC stage. -/
theorem flushAndCloseProcessStagedData : Obligations.FlushAndCloseProcessStagedData := by
  intro s h ho hdata hq P blocks result
  have hfit : s.fill ≤ Config.bufMax := h.fill_le_cap.trans (h.capRange (by simp [ho])).2.1
  have hlen : blocks.length = s.blockCount := s.length_counterBlocks
  have hadv := h.base.toNat_advance
  have hrun (c : Option Pending) (record : DrainStage → Pending) (finish : State → State) :
      procStage P record finish { s with cur := c } = .next (result (record .drain)) := by
    rw [procStage_of_data (s := { s with cur := c }) hdata hfit hq]
    simp only [result, hlen]
    by_cases hcalls : callsSucceed P s.primLog.length s.blockCount = true
    · refine (if_pos hcalls).trans ?_
      rw [if_pos hcalls, ← State.stagedCount, ← hadv]
      change Host.Outcome.next { s with
        outQ := s.outQ ++ streamXor P s.key s.biv s.off.toNat s.staged
        off := s.off + BitVec.ofNat 64 s.stagedCount
        fill := (s.off + BitVec.ofNat 64 s.stagedCount).toNat % Config.blockBytes
        primLog := s.primLog ++ s.counterBlocks, cur := some (record .drain) } = _
      rw [hq]
      rfl
    · refine (if_neg hcalls).trans ?_
      rw [if_neg hcalls]
      rfl
  refine ⟨fun _ => ?_, fun hcur => ?_, fun hcur => ?_⟩
  · rw [exec_accept_flush ho, exec_accept_close ho]
    exact ⟨hrun _ _ _, hrun _ _ _⟩
  · rw [exec, execFlush, flushCommand_opened h ho hcur]
    exact hrun s.cur _ _
  · rw [exec, execClose, closeCommand_opened h ho hcur]
    exact hrun s.cur _ _

/-! ### Delivery -/

/-- With the sink placed to move once for each queued byte, its steps empty the queue into its log (R169). -/
theorem run_sinkSteps (k : Nat) {s : State} {rest : List Agent}
    (h : s.sched = List.replicate s.outQ.length .sink ++ rest) :
    run (s.outQ.length + k) s =
      run k { s with sched := rest, outQ := [], sinkLog := s.sinkLog ++ s.outQ } := by
  generalize hq : s.outQ = q at h ⊢
  induction q generalizing s with
  | nil =>
    have hs : s = { s with sched := rest, outQ := [], sinkLog := s.sinkLog ++ [] } := by
      rw [List.append_nil, ← hq, show rest = s.sched from h.symm]
    rw [List.length_nil, Nat.zero_add, ← hs]
  | cons b q ih =>
    set u := { s with
      sched := List.replicate q.length Agent.sink ++ rest, outQ := q, sinkLog := s.sinkLog ++ [b] } with hu
    have hstep : step s = .next u := by
      have hsched : s.sched = .sink :: (List.replicate q.length .sink ++ rest) := h
      simp only [step, State.nextAgent, State.popAgent, hsched, agentStep, sinkStep, hq, hu]
    rw [List.length_cons, Nat.add_right_comm, run, hstep]
    refine (ih rfl rfl).trans ?_
    rw [hu]
    simp only [List.append_assoc, List.singleton_append]

/-- The engine's step on a command in its DRAIN stage with the queue empty. -/
theorem run_engine {s u : State} {rest : List Agent} (hsched : s.sched = .engine :: rest)
    (h : engineStep { s with sched := rest } = .next u) : run 1 s = .next u := by
  have hstep : step s = .next u := by
    simp only [step, State.nextAgent, State.popAgent, hsched, agentStep, h]
  simp only [run, hstep]

theorem engineStep_flush_drain {s : State} (hcur : s.cur = some (.flush .drain)) (hq : s.outQ = []) :
    engineStep s = .next s.succeed := by
  rw [engineStep_of_pending hcur rfl (by simp [State.hold, hcur, hq]), exec, execFlush, flushCommand,
    State.recordFor_pending hcur rfl]
  exact drainStage_of_empty hq _ _

theorem engineStep_close_drain {s : State} (hcur : s.cur = some (.close .drain)) (hq : s.outQ = []) :
    engineStep s = .next s.closeInstance := by
  rw [engineStep_of_pending hcur rfl (by simp [State.hold, hcur, hq]), exec, execClose, closeCommand,
    State.recordFor_pending hcur rfl]
  exact drainStage_of_empty hq _ _

/-- Settles O29: the sink's steps empty the queue, and the engine's step ends the command. -/
theorem drainCompletesOnceTheSinkHasTaken : Obligations.DrainCompletesOnceTheSinkHasTaken := by
  refine fun s rest hsched => ⟨fun hcur => ?_, fun hcur => ?_⟩ <;>
    refine (run_sinkSteps 1 hsched).trans (run_engine rfl ?_)
  · exact engineStep_flush_drain (by exact hcur) rfl
  · exact engineStep_close_drain (by exact hcur) rfl

/-- With nothing staged, queued or still to be appended the sink has all it will have received. -/
theorem State.eventual_of_delivered {s : State} (hpad : s.fill = s.pad) (hq : s.outQ = []) (hidle : s.cur = none)
    (P : Primitive) : s.waiting = [] ∧ s.eventual P = s.sinkLog := by
  have hwaiting : s.waiting = [] := by
    rw [State.waiting, State.staged_of_padOnly hpad, State.unappended_of_idle hidle, List.append_nil]
  refine ⟨hwaiting, ?_⟩
  rw [State.eventual, hwaiting, hq, streamXor, List.append_nil, List.append_nil]

/-- A FLUSH or CLOSE of an open instance that completes with success leaves nothing behind (R167, R209). -/
theorem engineStep_delivered {s t : State} (h : s.Inv) (ho : s.phase = .opened)
    (hcur : ∃ st, s.cur = some (.flush st) ∨ s.cur = some (.close st)) (hs : engineStep s = .next t)
    (hidle : t.cur = none) (hok : t.err = .ok) : t.fill = t.pad ∧ t.outQ = [] := by
  obtain ⟨hnone, -⟩ | ⟨p, hp, -, rfl⟩ | ⟨p, i, hp, -, hi, hx⟩ | ⟨hill, -⟩ := engineStep_cases hs
  · simp [hnone] at hcur
  · simp [hp] at hidle
  · obtain ⟨st, hflush | hclose⟩ := hcur
    · obtain rfl := Option.some.inj (hp.symm.trans hflush)
      cases hi
      rw [exec, execFlush, flushCommand_opened h ho hflush] at hx
      obtain ⟨u, -, hpad, hq, rfl⟩ := procStage_ok h.base ho hx hidle hok
      exact ⟨hpad, hq⟩
    · obtain rfl := Option.some.inj (hp.symm.trans hclose)
      cases hi
      rw [exec, execClose, closeCommand_opened h ho hclose] at hx
      obtain ⟨u, -, hpad, hq, rfl⟩ := procStage_ok h.base ho hx hidle hok
      exact ⟨hpad, hq⟩
  · simp [hill] at hcur

/-- Settles O57: what is left behind decides what the sink is still to receive. -/
theorem completedFlushHasDeliveredEverything : Obligations.CompletedFlushHasDeliveredEverything := by
  intro s t h ho ha hcur hs hidle hok
  rw [step, ha] at hs
  obtain ⟨hpad, hq⟩ := engineStep_delivered h.popAgent (by simpa using ho) (by simpa using hcur) hs hidle hok
  obtain ⟨-, heventual⟩ := State.eventual_of_delivered hpad hq hidle Config.primitive
  exact ⟨hq, State.staged_of_padOnly hpad, heventual⟩

end Sys2Proof.Machine
end

section
/-!
PROOFS. What one step can change of an instance (10_state.md R25, R29, R46 to R49), in any state: an inversion lemma for
the step, split by how the pending command goes on, from which the rules about the phase, the key and `ERR` follow.
-/

namespace Sys2Proof.Machine

/-! ### What an engine step can do to an instance -/

/-- The parts of an instance that only the end of a command can change. -/
structure SameInstance (s t : State) : Prop where
  phase : t.phase = s.phase
  err : t.err = s.err
  key : t.key = s.key
  biv : t.biv = s.biv
  cap : t.cap = s.cap

theorem SameInstance.refl (s : State) : SameInstance s s := ⟨rfl, rfl, rfl, rfl, rfl⟩

theorem SameInstance.trans {s t u : State} (h : SameInstance s t) (h' : SameInstance t u) : SameInstance s u :=
  ⟨h'.phase.trans h.phase, h'.err.trans h.err, h'.key.trans h.key, h'.biv.trans h.biv, h'.cap.trans h.cap⟩

/-- The commands that invoke the primitive (R155, R158). -/
def Pending.Invokes (p : Pending) : Prop :=
  (∃ n rem stage, p = .write n rem stage) ∨ (∃ stage, p = .flush stage) ∨ (∃ stage, p = .close stage)

/-- How the pending command `p` goes on from `s`: it waits, it ends, or it moves the instance to another phase. -/
inductive CommandEffect (p : Pending) (s t : State) : Prop where
  | waits (hsame : SameInstance s t) (hcur : t.cur ≠ none)
  | ends (hphase : t.phase = s.phase) (hkey : t.key = s.key) (hbiv : t.biv = s.biv) (hcap : t.cap = s.cap)
      (hcur : t.cur = none)
  | faults (hp : p.Invokes) (hphase : t.phase = .fault) (herr : t.err = .primitiveFailure) (hcur : t.cur = none)
  | closes (hp : ∃ stage, p = .close stage) (hphase : t.phase = .closed) (herr : t.err = .ok) (hcur : t.cur = none)
  | opens (hp : ∃ k v key iv o b, p = .init k v key iv o b) (hnew : s.phase ≠ .opened) (hphase : t.phase = .opened)
      (hcur : t.cur = none)

theorem CommandEffect.of_same {p : Pending} {s u t : State} (h : SameInstance s u) (he : CommandEffect p u t) :
    CommandEffect p s t := by
  cases he with
  | waits hsame hcur => exact .waits (h.trans hsame) hcur
  | ends hphase hkey hbiv hcap hcur =>
    exact .ends (hphase.trans h.phase) (hkey.trans h.key) (hbiv.trans h.biv) (hcap.trans h.cap) hcur
  | faults hp hphase herr hcur => exact .faults hp hphase herr hcur
  | closes hp hphase herr hcur => exact .closes hp hphase herr hcur
  | opens hp hnew hphase hcur => exact .opens hp (h.phase ▸ hnew) hphase hcur

theorem CommandEffect.finish (p : Pending) (s : State) (c : ErrCode) : CommandEffect p s (s.finish c) :=
  .ends rfl rfl rfl rfl rfl

theorem appendWhile_same {rem rest : List Byte} {s t : State} (h : appendWhile rem s = .ok (rest, t)) :
    SameInstance s t := by
  induction rem generalizing s with
  | nil => cases h; exact .refl _
  | cons b rem ih =>
    rw [appendWhile] at h
    split at h
    · split at h
      · rename_i u hu
        have hsame : SameInstance s u := by
          rw [State.appendIn] at hu
          split at hu <;> cases hu
          exact ⟨rfl, rfl, rfl, rfl, rfl⟩
        exact hsame.trans (ih h)
      · cases h
    · cases h; exact .refl _

theorem process_same {P : Primitive} {s u : State} (h : process P s = .done u ∨ process P s = .failed u) :
    SameInstance s u := by
  rw [process] at h
  split at h
  · obtain h | h := h <;> cases h
    exact .refl _
  · split at h
    · obtain h | h := h <;> cases h
    · split at h <;> obtain h | h := h <;> cases h
      · exact ⟨rfl, rfl, rfl, rfl, rfl⟩
      · exact ⟨rfl, rfl, rfl, rfl, rfl⟩

theorem writeLoop_effect {P : Primitive} {p : Pending} (hp : p.Invokes) {n rounds : Nat} {rem : List Byte}
    {s t : State} (h : writeLoop P n rounds rem s = .next t) : CommandEffect p s t := by
  induction rounds generalizing rem s with
  | zero => cases h; exact .waits ⟨rfl, rfl, rfl, rfl, rfl⟩ (by simp)
  | succ rounds ih =>
    rw [writeLoop] at h
    split at h
    · cases h
    · rename_i rest u happend
      refine .of_same (appendWhile_same happend) ?_
      split at h
      · split at h
        · split at h
          · exact .of_same (process_same (.inl ‹_›)) (ih h)
          · cases h; exact .faults hp rfl rfl rfl
          · cases h
        · cases h; exact .waits ⟨rfl, rfl, rfl, rfl, rfl⟩ (by simp)
      · cases h; exact .finish p u .ok

theorem drainStage_effect {p : Pending} {record : DrainStage → Pending} {finish : State → State} {s t : State}
    (hfinish : CommandEffect p s (finish s)) (h : drainStage record finish s = .next t) : CommandEffect p s t := by
  obtain ⟨-, rfl⟩ | ⟨-, rfl⟩ := drainStage_cases h
  · exact hfinish
  · exact .waits ⟨rfl, rfl, rfl, rfl, rfl⟩ (by simp)

theorem procStage_effect {P : Primitive} {p : Pending} (hp : p.Invokes) {record : DrainStage → Pending}
    {finish : State → State} {s t : State} (hfinish : ∀ u, CommandEffect p u (finish u))
    (h : procStage P record finish s = .next t) : CommandEffect p s t := by
  obtain ⟨-, hd⟩ | ⟨-, -, rfl⟩ | ⟨-, -, ⟨u, hu, hd⟩ | ⟨u, -, rfl⟩⟩ := procStage_cases h
  · exact drainStage_effect (hfinish s) hd
  · exact .waits ⟨rfl, rfl, rfl, rfl, rfl⟩ (by simp)
  · exact .of_same (process_same (.inl hu)) (drainStage_effect (hfinish u) hd)
  · exact .faults hp rfl rfl rfl

theorem writeCommand_effect {P : Primitive} {n : Nat} {s t : State} {rem : List Byte} {stage : WriteStage}
    (hcur : s.cur = some (.write n rem stage)) (h : writeCommand P n s = .next t) :
    CommandEffect (.write n rem stage) s t := by
  have hp : (Pending.write n rem stage).Invokes := .inl ⟨n, rem, stage, rfl⟩
  rw [writeCommand, State.recordFor_pending hcur rfl] at h
  cases stage with
  | start =>
    dsimp only at h
    split at h
    · cases h; exact .finish _ s _
    · cases h; exact .finish _ s _
    · cases h; exact .finish _ s _
    · split at h
      · cases h; exact .finish _ s _
      · exact writeLoop_effect hp h
  | run => exact writeLoop_effect hp h

theorem flushCommand_effect {P : Primitive} {s t : State} {stage : DrainStage} (hcur : s.cur = some (.flush stage))
    (h : flushCommand P s = .next t) : CommandEffect (.flush stage) s t := by
  have hp : (Pending.flush stage).Invokes := .inr (.inl ⟨stage, rfl⟩)
  rw [flushCommand, State.recordFor_pending hcur rfl] at h
  cases stage with
  | start =>
    dsimp only at h
    split at h
    · cases h; exact .finish _ s _
    · cases h; exact .finish _ s _
    · cases h; exact .finish _ s _
    · exact procStage_effect hp (fun u => .finish _ u _) h
  | proc => exact procStage_effect hp (fun u => .finish _ u _) h
  | drain => exact drainStage_effect (.finish _ s _) h

theorem closeCommand_effect {P : Primitive} {s t : State} {stage : DrainStage} (hcur : s.cur = some (.close stage))
    (h : closeCommand P s = .next t) : CommandEffect (.close stage) s t := by
  have hp : (Pending.close stage).Invokes := .inr (.inr ⟨stage, rfl⟩)
  have hcloses (u : State) : CommandEffect (.close stage) u u.closeInstance := .closes ⟨stage, rfl⟩ rfl rfl rfl
  rw [closeCommand, State.recordFor_pending hcur rfl] at h
  cases stage with
  | start =>
    dsimp only at h
    split at h
    · cases h; exact .finish _ s _
    · cases h; exact .finish _ s _
    · cases h; exact .closes ⟨.start, rfl⟩ rfl rfl rfl
    · exact procStage_effect hp hcloses h
  | proc => exact procStage_effect hp hcloses h
  | drain => exact drainStage_effect (hcloses s) h

theorem initCommand_effect (s : State) (kl : BitVec 2) (ivb : BitVec 5) (key32 : List Byte) (iv16 : Block)
    (ioff : DWord) (bufreq : Word) :
    CommandEffect (.init kl ivb key32 iv16 ioff bufreq) s (initCommand kl ivb key32 iv16 ioff bufreq s) := by
  have hfail (c : ErrCode) :
      CommandEffect (.init kl ivb key32 iv16 ioff bufreq) s (s.clearStaging.fail c) := .ends rfl rfl rfl rfl rfl
  unfold initCommand
  split
  · exact hfail _
  · split
    · exact hfail _
    · split
      · exact hfail _
      · split
        · exact hfail _
        · exact .opens ⟨_, _, _, _, _, _, rfl⟩ ‹_› rfl rfl

/-- Everything a pending command can do to the instance, one case for each kind of record. -/
theorem exec_effect {s t : State} {p : Pending} {i : Instr} (hcur : s.cur = some p) (hi : p.instr = some i)
    (hs : exec i s = .next t) : CommandEffect p s t := by
  have hrec := State.recordFor_pending hcur hi
  cases p with
  | illegal => cases hi
  | nop => cases hi; rw [exec_nop hcur] at hs; cases hs; exact .finish _ s _
  | derive tiv tcnt => cases hi; rw [exec_derive hcur] at hs; cases hs; exact .ends rfl rfl rfl rfl rfl
  | init kl ivb key32 iv16 ioff bufreq =>
    cases hi
    rw [exec_init hcur] at hs
    cases hs
    exact initCommand_effect s kl ivb key32 iv16 ioff bufreq
  | write n rem stage => cases hi; exact writeCommand_effect hcur hs
  | flush stage => cases hi; exact flushCommand_effect hcur hs
  | close stage => cases hi; exact closeCommand_effect hcur hs

theorem engineStep_effect {s t : State} (hs : engineStep s = .next t) :
    t = s ∨ ∃ p, s.cur = some p ∧ CommandEffect p s t := by
  obtain ⟨-, rfl⟩ | ⟨-, -, -, rfl⟩ | ⟨p, i, hcur, -, hi, hx⟩ | ⟨hcur, rfl⟩ := engineStep_cases hs
  · exact .inl rfl
  · exact .inl rfl
  · exact .inr ⟨p, hcur, exec_effect hcur hi hx⟩
  · exact .inr ⟨.illegal, hcur, .finish _ s _⟩

/-! ### What a step can do to an instance -/

theorem State.popAgent_same (s : State) : SameInstance s s.popAgent := by
  constructor <;> simp

theorem hostStep_same {s t : State} (hs : hostStep s = .next t) : SameInstance s t := by
  obtain rfl | rfl | ⟨o, rfl⟩ | ⟨o, v, -, rfl⟩ | ⟨v, -, -, rfl⟩ | ⟨-, rfl⟩ := hostStep_cases hs
  · exact ⟨rfl, rfl, rfl, rfl, rfl⟩
  · constructor <;> simp
  · constructor <;> simp
  · rw [busWrite_frame]
    constructor <;> simp
  · constructor <;> simp
  · exact .refl _

theorem sinkStep_same (s : State) : SameInstance s (sinkStep s) := by
  rw [sinkStep]
  split
  · exact .refl _
  · exact ⟨rfl, rfl, rfl, rfl, rfl⟩

/-- Everything a step can do to the instance: the reset input, nothing, or what the pending command does. -/
theorem step_effect {s t : State} (hs : step s = .next t) :
    (s.nextAgent = .reset ∧ t.phase = .uninit) ∨ SameInstance s t ∨
      (s.nextAgent = .engine ∧ ∃ p, s.cur = some p ∧ CommandEffect p s t) := by
  have hpop := s.popAgent_same
  obtain ⟨-, hh⟩ | ⟨ha, he⟩ | ⟨-, rfl⟩ | ⟨ha, rfl⟩ := step_cases hs
  · exact .inr (.inl (hpop.trans (hostStep_same hh)))
  · obtain rfl | ⟨p, hcur, heffect⟩ := engineStep_effect he
    · exact .inr (.inl hpop)
    · exact .inr (.inr ⟨ha, p, by simpa using hcur, .of_same hpop heffect⟩)
  · exact .inr (.inl (hpop.trans (sinkStep_same s.popAgent)))
  · exact .inl ⟨ha, rfl⟩

/-! ### The statements -/

/-- Settles O46: the invariant is kept by each agent's step. -/
theorem stepKeepsTheInvariant : Obligations.StepKeepsTheInvariant :=
  fun _ _ h hs => step_inv h hs

/-- Settles O49: of a command's effects, three move the phase. -/
theorem onlyTheseChangeThePhase : Obligations.OnlyTheseChangeThePhase := by
  intro s t hs hmoved
  obtain ⟨ha, hphase⟩ | hsame | ⟨ha, p, hcur, heffect⟩ := step_effect hs
  · exact .inl ⟨ha, hphase⟩
  · exact absurd hsame.phase hmoved
  · refine .inr ⟨ha, ?_⟩
    simp only [hcur, Option.some.injEq]
    cases heffect with
    | waits hsame => exact absurd hsame.phase hmoved
    | ends hphase => exact absurd hphase hmoved
    | opens hp hnew hphase =>
      obtain ⟨k, v, key, iv, o, b, rfl⟩ := hp
      exact .inl ⟨k, v, key, iv, o, b, rfl, hphase⟩
    | closes hp hphase =>
      obtain ⟨stage, rfl⟩ := hp
      exact .inr (.inl ⟨stage, rfl, hphase⟩)
    | faults hp hphase herr => exact .inr (.inr ⟨hp, hphase, herr⟩)

/-- Settles O50: the effects that replace the key end in another phase or start from one. -/
theorem openInstanceKeepsItsKey : Obligations.OpenInstanceKeepsItsKey := by
  intro s t hs ho ht
  obtain ⟨-, hphase⟩ | hsame | ⟨-, p, -, heffect⟩ := step_effect hs
  · rw [ht] at hphase; cases hphase
  · exact ⟨hsame.key, hsame.biv, hsame.cap⟩
  · cases heffect with
    | waits hsame => exact ⟨hsame.key, hsame.biv, hsame.cap⟩
    | ends hphase hkey hbiv hcap => exact ⟨hkey, hbiv, hcap⟩
    | faults hp hphase => rw [ht] at hphase; cases hphase
    | closes hp hphase => rw [ht] at hphase; cases hphase
    | opens hp hnew => exact absurd ho hnew

/-- Settles O52: every effect but a wait ends the command. -/
theorem errIsWrittenAtCompletion : Obligations.ErrIsWrittenAtCompletion := by
  intro s t hs hreset herr
  obtain ⟨ha, -⟩ | hsame | ⟨-, p, hcur, heffect⟩ := step_effect hs
  · exact absurd ha hreset
  · exact absurd hsame.err herr
  · refine ⟨by simp [hcur], ?_⟩
    cases heffect with
    | waits hsame => exact absurd hsame.err herr
    | ends _ _ _ _ hidle => exact hidle
    | faults _ _ _ hidle => exact hidle
    | closes _ _ _ hidle => exact hidle
    | opens _ _ _ hidle => exact hidle

end Sys2Proof.Machine
end

section
/-!
PROOFS. What the invariant gives of each pending command: it always answers a next state (20_memory.md R90), with the
codes of the error matrix (60_exceptions.md R232); it advances the offset by the bytes it emits (10_state.md R49); and
`HOLD` says whether it waits (R28).
-/

namespace Sys2Proof.Machine

/-! ### FLUSH and CLOSE from their records -/

/-- Everything FLUSH can do from its record under the invariant: a refusal with a code of the error matrix, or its PROC
stage. -/
theorem flushCommand_cases (P : Primitive) {s : State} {stage : DrainStage} (h : s.Inv)
    (hcur : s.cur = some (.flush stage)) :
    (∃ c ∈ allowedCodes (.flush stage) s.phase, flushCommand P s = .next (s.fail c)) ∨
    (s.phase = .opened ∧ flushCommand P s = procStage P .flush State.succeed s) := by
  by_cases ho : s.phase = .opened
  · exact .inr ⟨ho, flushCommand_opened h ho hcur⟩
  · have hp := h.pendingWf
    rw [State.pendingOk, hcur] at hp
    cases stage with
    | start =>
      have hrefused (c : ErrCode) (hc : s.phase.RefusesWith c) := flushCommand_refused (P := P) hcur hc
      cases hphase : s.phase with
      | uninit => exact .inl ⟨_, List.mem_singleton.mpr rfl, hrefused _ (hphase ▸ .uninit)⟩
      | closed => exact .inl ⟨_, List.mem_singleton.mpr rfl, hrefused _ (hphase ▸ .closed)⟩
      | fault => exact .inl ⟨_, List.mem_singleton.mpr rfl, hrefused _ (hphase ▸ .fault)⟩
      | opened => exact absurd hphase ho
    | proc => exact absurd hp ho
    | drain => exact absurd hp.1 ho

/-- Everything CLOSE can do from its record under the invariant: as FLUSH, but in FAULT it ends the instance (R212). -/
theorem closeCommand_cases (P : Primitive) {s : State} {stage : DrainStage} (h : s.Inv)
    (hcur : s.cur = some (.close stage)) :
    (∃ c ∈ allowedCodes (.close stage) s.phase, closeCommand P s = .next (s.fail c)) ∨
    (s.phase = .fault ∧ closeCommand P s = .next { s with phase := .closed }.succeed) ∨
    (s.phase = .opened ∧ closeCommand P s = procStage P .close State.closeInstance s) := by
  by_cases ho : s.phase = .opened
  · exact .inr (.inr ⟨ho, closeCommand_opened h ho hcur⟩)
  · have hp := h.pendingWf
    rw [State.pendingOk, hcur] at hp
    cases stage with
    | start =>
      have hrefused (c : ErrCode) (hc : s.phase.RefusesWith c) := closeCommand_refused (P := P) hcur hc
      cases hphase : s.phase with
      | uninit => exact .inl ⟨_, List.mem_singleton.mpr rfl, hrefused _ (hphase ▸ .uninit) (by simp [hphase])⟩
      | closed => exact .inl ⟨_, List.mem_singleton.mpr rfl, hrefused _ (hphase ▸ .closed) (by simp [hphase])⟩
      | fault => exact .inr (.inl ⟨rfl, closeCommand_faulted hcur hphase⟩)
      | opened => exact absurd hphase ho
    | proc => exact absurd hp ho
    | drain => exact absurd hp.1 ho

/-! ### Every command answers -/

theorem drainStage_answers (record : DrainStage → Pending) (finish : State → State) (s : State) :
    ∃ t, drainStage record finish s = .next t := by
  rw [drainStage]
  split
  · exact ⟨_, rfl⟩
  · exact ⟨_, rfl⟩

theorem procStage_answers (P : Primitive) (record : DrainStage → Pending) (finish : State → State) {s : State}
    (hfit : s.fill ≤ Config.bufMax) : ∃ t, procStage P record finish s = .next t := by
  by_cases hdata : s.pad < s.fill
  · by_cases hq : s.outQ = []
    · rw [procStage_of_data hdata hfit hq]
      split
      · exact ⟨_, rfl⟩
      · exact ⟨_, rfl⟩
    · exact ⟨_, procStage_of_queued hdata hq P record finish⟩
  · rw [procStage, if_neg hdata]
    exact drainStage_answers record finish s

theorem WriteReady.loop_answers {rem : List Byte} {s : State} (h : WriteReady s rem) (P : Primitive) (n : Nat) :
    ∃ t, writeLoop P n 2 rem s = .next t := by
  obtain ⟨-, hloop⟩ | ⟨-, -, hloop⟩ | ⟨-, -, ⟨-, hloop⟩ | ⟨-, hloop⟩⟩ := h.loop_cases (P := P) (n := n) (rounds := 0)
  all_goals exact ⟨_, hloop⟩

theorem exec_answers {s : State} {p : Pending} {i : Instr} (h : s.Inv) (hcur : s.cur = some p)
    (hi : p.instr = some i) : ∃ t, exec i s = .next t := by
  have hfit (ho : s.phase = .opened) : s.fill ≤ Config.bufMax :=
    h.fill_le_cap.trans (h.capRange (by simp [ho])).2.1
  cases p with
  | illegal => cases hi
  | nop => cases hi; exact ⟨_, exec_nop hcur⟩
  | derive tiv tcnt => cases hi; exact ⟨_, exec_derive hcur⟩
  | init kl ivb key32 iv16 ioff bufreq => cases hi; exact ⟨_, exec_init hcur⟩
  | write n rem stage =>
    cases hi
    obtain ⟨c, -, hfail⟩ | ⟨hready, -, hloop⟩ := writeCommand_cases Config.primitive h hcur
    · exact ⟨_, hfail⟩
    · obtain ⟨t, ht⟩ := hready.loop_answers Config.primitive n
      exact ⟨t, hloop.trans ht⟩
  | flush stage =>
    cases hi
    obtain ⟨c, -, hfail⟩ | ⟨ho, hproc⟩ := flushCommand_cases Config.primitive h hcur
    · exact ⟨_, hfail⟩
    · obtain ⟨t, ht⟩ := procStage_answers Config.primitive .flush State.succeed (hfit ho)
      exact ⟨t, hproc.trans ht⟩
  | close stage =>
    cases hi
    obtain ⟨c, -, hfail⟩ | ⟨-, hended⟩ | ⟨ho, hproc⟩ := closeCommand_cases Config.primitive h hcur
    · exact ⟨_, hfail⟩
    · exact ⟨_, hended⟩
    · obtain ⟨t, ht⟩ := procStage_answers Config.primitive .close State.closeInstance (hfit ho)
      exact ⟨t, hproc.trans ht⟩

theorem engineStep_answers {s : State} (h : s.Inv) : ∃ t, engineStep s = .next t := by
  rw [engineStep]
  split
  · exact ⟨_, rfl⟩
  · split
    · exact ⟨_, rfl⟩
    · split
      · exact exec_answers h ‹_› ‹_›
      · exact ⟨_, rfl⟩

/-- The host's accesses never touch the buffer. -/
theorem hostStep_ne_fault (s : State) (f : Fault) : hostStep s ≠ .fault f := by
  intro h
  rw [hostStep] at h
  split at h
  · split at h <;> cases h
  · split at h <;> cases h
  · split at h
    · split at h
      · split at h <;> cases h
      · cases h
    · cases h

/-- Settles O47: under the invariant the engine always answers a next state, and no other agent touches the buffer. -/
theorem noAccessOutOfBounds : Obligations.NoAccessOutOfBounds := by
  intro s f h hs
  rw [step] at hs
  cases ha : s.nextAgent with
  | host => rw [ha] at hs; exact hostStep_ne_fault _ f hs
  | engine =>
    obtain ⟨t, ht⟩ := engineStep_answers h.popAgent
    rw [ha, agentStep, ht] at hs
    cases hs
  | sink => rw [ha] at hs; cases hs
  | reset => rw [ha] at hs; cases hs

/-! ### The error matrix -/

theorem initCommand_code (s : State) (kl : BitVec 2) (ivb : BitVec 5) (key32 : List Byte) (iv16 : Block)
    (ioff : DWord) (bufreq : Word) :
    (initCommand kl ivb key32 iv16 ioff bufreq s).err ∈
      allowedCodes (.init kl ivb key32 iv16 ioff bufreq) s.phase := by
  by_cases ho : s.phase = .opened
  · rw [initCommand_of_opened ho, ho]
    exact List.mem_singleton.mpr rfl
  · have hcodes : allowedCodes (.init kl ivb key32 iv16 ioff bufreq) s.phase =
        [.invalidKeyMaterial, .invalidBufferSize, .ok] := by
      cases hphase : s.phase with
      | opened => exact absurd hphase ho
      | uninit | closed | fault => rfl
    rw [hcodes]
    by_cases hbad : kl = 3 ∨ ivb ≠ 16
    · rw [initCommand_of_badWidths ho hbad]
      simp
    · obtain ⟨hkl, rfl⟩ : kl ≠ 3 ∧ ivb = 16 := by simpa using hbad
      rw [initCommand_of_widths ho (keyLength_of_ne_three hkl)]
      split <;> simp

/-- A command that ends in its PROC or DRAIN stage ends with success or, at a failed invocation, in FAULT. -/
theorem procStage_code {P : Primitive} {record : DrainStage → Pending} {finish : State → State} {s t : State}
    (hok : ∀ u, (finish u).err = .ok) (hs : procStage P record finish s = .next t) (hidle : t.cur = none) :
    t.err = .ok ∨ t.err = .primitiveFailure := by
  have hdrain {u : State} (hd : drainStage record finish u = .next t) : t.err = .ok := by
    obtain ⟨-, rfl⟩ | ⟨-, rfl⟩ := drainStage_cases hd
    · exact hok u
    · cases hidle
  obtain ⟨-, hd⟩ | ⟨-, -, rfl⟩ | ⟨-, -, ⟨u, -, hd⟩ | ⟨u, -, rfl⟩⟩ := procStage_cases hs
  · exact .inl (hdrain hd)
  · cases hidle
  · exact .inl (hdrain hd)
  · exact .inr rfl

theorem exec_code {s t : State} {p : Pending} {i : Instr} (h : s.Inv) (hcur : s.cur = some p)
    (hi : p.instr = some i) (hs : exec i s = .next t) (hidle : t.cur = none) : t.err ∈ allowedCodes p s.phase := by
  cases p with
  | illegal => cases hi
  | nop => cases hi; rw [exec_nop hcur] at hs; cases hs; exact List.mem_singleton.mpr rfl
  | derive tiv tcnt => cases hi; rw [exec_derive hcur] at hs; cases hs; exact List.mem_singleton.mpr rfl
  | init kl ivb key32 iv16 ioff bufreq =>
    cases hi
    rw [exec_init hcur] at hs
    cases hs
    exact initCommand_code s kl ivb key32 iv16 ioff bufreq
  | write n rem stage =>
    cases hi
    rw [exec, execWrite] at hs
    obtain ⟨c, hc, hfail⟩ | ⟨hready, -, hloop⟩ := writeCommand_cases Config.primitive h hcur
    · rw [hfail] at hs; cases hs; exact hc
    · rw [hloop] at hs
      rw [hready.phase]
      obtain hcode | hcode := writeLoop_code hs hidle <;> simp [hcode, allowedCodes]
  | flush stage =>
    cases hi
    rw [exec, execFlush] at hs
    obtain ⟨c, hc, hfail⟩ | ⟨ho, hproc⟩ := flushCommand_cases Config.primitive h hcur
    · rw [hfail] at hs; cases hs; exact hc
    · rw [hproc] at hs
      rw [ho]
      obtain hcode | hcode := procStage_code (fun _ => rfl) hs hidle <;> simp [hcode, allowedCodes]
  | close stage =>
    cases hi
    rw [exec, execClose] at hs
    obtain ⟨c, hc, hfail⟩ | ⟨hf, hended⟩ | ⟨ho, hproc⟩ := closeCommand_cases Config.primitive h hcur
    · rw [hfail] at hs; cases hs; exact hc
    · rw [hended] at hs; cases hs; rw [hf]; exact List.mem_singleton.mpr rfl
    · rw [hproc] at hs
      rw [ho]
      obtain hcode | hcode := procStage_code (fun _ => rfl) hs hidle <;> simp [hcode, allowedCodes]

/-- Settles O53: the command that completes has run, or was ILLEGAL. -/
theorem errorMatrix : Obligations.ErrorMatrix := by
  intro s t p h hcur hs hidle
  obtain ⟨hnone, -⟩ | ⟨q, hq, -, rfl⟩ | ⟨q, i, hq, -, hi, hx⟩ | ⟨hill, rfl⟩ := engineStep_cases hs
  · rw [hcur] at hnone; cases hnone
  · rw [hq] at hidle; cases hidle
  · obtain rfl := Option.some.inj (hq.symm.trans hcur)
    exact exec_code h hcur hi hx hidle
  · obtain rfl := Option.some.inj (hill.symm.trans hcur)
    exact List.mem_singleton.mpr rfl

/-! ### The offset -/

/-- From `s` to `t` the offset has advanced by the bytes emitted, those the sink has taken since included, and not at
all where `t` is in FAULT (R49, R161, R235). -/
structure Advanced (s t : State) : Prop where
  mono : s.off.toNat ≤ t.off.toNat
  fault : t.phase = .fault → t.off = s.off
  emitted : t.off.toNat + s.outQ.length + s.sinkLog.length = s.off.toNat + t.outQ.length + t.sinkLog.length

theorem Advanced.of_eq {s t : State} (hoff : t.off = s.off := by simp) (hout : t.outQ = s.outQ := by simp)
    (hsink : t.sinkLog = s.sinkLog := by simp) : Advanced s t :=
  ⟨by rw [hoff], fun _ => hoff, by rw [hoff, hout, hsink]⟩

/-- A process advances the offset by the staged bytes and queues as many. -/
theorem Advanced.processed {s t : State} (h : s.BaseInv) (P : Primitive) (hoff : t.off = (s.processed P).off)
    (hout : t.outQ = (s.processed P).outQ) (hsink : t.sinkLog = s.sinkLog) (hphase : t.phase ≠ .fault) :
    Advanced s t := by
  have hadv : (s.processed P).off.toNat = s.off.toNat + s.stagedCount := h.toNat_advance
  have hlen : (s.processed P).outQ.length = s.outQ.length + s.stagedCount := by simp [State.processed]
  refine ⟨?_, fun hf => absurd hf hphase, ?_⟩
  · rw [hoff, hadv]
    omega
  · rw [hoff, hout, hsink, hadv, hlen]
    omega

theorem WriteReady.loop_advanced {P : Primitive} {n : Nat} {rem : List Byte} {s t : State} (h : WriteReady s rem)
    (hs : writeLoop P n 2 rem s = .next t) : Advanced s t := by
  obtain ⟨-, hloop⟩ | ⟨-, -, hloop⟩ | ⟨-, -, ⟨-, hloop⟩ | ⟨-, hloop⟩⟩ := h.loop_cases (P := P) (n := n) (rounds := 0)
  all_goals obtain rfl := Host.Outcome.next.inj (hloop.symm.trans hs)
  · exact .of_eq rfl rfl rfl
  · exact .of_eq rfl rfl rfl
  · have hphase : s.phase ≠ .fault := by simp [h.phase]
    obtain ⟨hmono, -, hemitted⟩ := Advanced.processed (t := (s.appended rem).processed P) h.appended.base P rfl rfl rfl
      hphase
    exact ⟨hmono, fun hf => absurd hf hphase, hemitted⟩
  · exact .of_eq rfl rfl rfl

theorem procStage_advanced {P : Primitive} {record : DrainStage → Pending} {finish : State → State} {s t : State}
    (h : s.BaseInv) (ho : s.phase = .opened)
    (hfinish : ∀ u, (finish u).off = u.off ∧ (finish u).outQ = u.outQ ∧ (finish u).sinkLog = u.sinkLog)
    (hs : procStage P record finish s = .next t) : Advanced s t := by
  by_cases hdata : s.pad < s.fill
  · by_cases hq : s.outQ = []
    · have hfit : s.fill ≤ Config.bufMax :=
        (h.fillRange (by simp [ho])).2.trans (h.capRange (by simp [ho])).2.1
      rw [procStage_of_data hdata hfit hq] at hs
      split at hs <;> cases hs
      · exact .processed h P rfl rfl rfl (by simp [State.processed, ho])
      · exact .of_eq rfl rfl rfl
    · rw [procStage_of_queued hdata hq] at hs
      cases hs
      exact .of_eq rfl rfl rfl
  · rw [procStage, if_neg hdata] at hs
    obtain ⟨-, rfl⟩ | ⟨-, rfl⟩ := drainStage_cases hs
    · obtain ⟨hoff, hout, hsink⟩ := hfinish s
      exact .of_eq hoff hout hsink
    · exact .of_eq rfl rfl rfl

theorem exec_advanced {s t : State} {p : Pending} {i : Instr} (h : s.Inv) (ho : s.phase = .opened)
    (hcur : s.cur = some p) (hi : p.instr = some i) (hs : exec i s = .next t) : Advanced s t := by
  cases p with
  | illegal => cases hi
  | nop => cases hi; rw [exec_nop hcur] at hs; cases hs; exact .of_eq
  | derive tiv tcnt => cases hi; rw [exec_derive hcur] at hs; cases hs; exact .of_eq
  | init kl ivb key32 iv16 ioff bufreq =>
    cases hi
    rw [exec_init hcur, initCommand_of_opened ho] at hs
    cases hs
    exact .of_eq
  | write n rem stage =>
    cases hi
    rw [exec, execWrite] at hs
    obtain ⟨c, -, hfail⟩ | ⟨hready, -, hloop⟩ := writeCommand_cases Config.primitive h hcur
    · rw [hfail] at hs; cases hs; exact .of_eq
    · exact hready.loop_advanced (hloop.symm.trans hs)
  | flush stage =>
    cases hi
    rw [exec, execFlush, flushCommand_opened h ho hcur] at hs
    exact procStage_advanced (finish := State.succeed) h.base ho (fun _ => ⟨rfl, rfl, rfl⟩) hs
  | close stage =>
    cases hi
    rw [exec, execClose, closeCommand_opened h ho hcur] at hs
    exact procStage_advanced (finish := State.closeInstance) h.base ho (fun _ => ⟨rfl, rfl, rfl⟩) hs

theorem engineStep_advanced {s t : State} (h : s.Inv) (ho : s.phase = .opened) (hs : engineStep s = .next t) :
    Advanced s t := by
  obtain ⟨-, rfl⟩ | ⟨p, -, -, rfl⟩ | ⟨p, i, hcur, -, hi, hx⟩ | ⟨-, rfl⟩ := engineStep_cases hs
  · exact .of_eq
  · exact .of_eq
  · exact exec_advanced h ho hcur hi hx
  · exact .of_eq

theorem hostStep_advanced {s t : State} (hs : hostStep s = .next t) : Advanced s t := by
  obtain rfl | rfl | ⟨o, rfl⟩ | ⟨o, v, -, rfl⟩ | ⟨v, -, -, rfl⟩ | ⟨-, rfl⟩ := hostStep_cases hs
  · exact .of_eq
  · exact .of_eq
  · exact .of_eq
  · rw [busWrite_frame]; exact .of_eq
  · exact .of_eq
  · exact .of_eq

/-- The byte the sink takes moves from the queue to its log. -/
theorem sinkStep_advanced (s : State) : Advanced s (sinkStep s) := by
  rw [sinkStep]
  split
  · exact .of_eq
  · rename_i b q hq
    refine ⟨Nat.le_refl _, fun _ => rfl, ?_⟩
    rw [hq]
    simp only [List.length_cons, List.length_append, List.length_nil]
    omega

/-- The scheduling choice does not enter. -/
theorem Advanced.of_popAgent {s t : State} (h : Advanced s.popAgent t) : Advanced s t := by
  obtain ⟨hmono, hfault, hemitted⟩ := h
  exact ⟨by simpa using hmono, by simpa using hfault, by simpa using hemitted⟩

theorem step_advanced {s t : State} (h : s.Inv) (ho : s.phase = .opened) (hreset : s.nextAgent ≠ .reset)
    (hs : step s = .next t) : Advanced s t := by
  refine .of_popAgent ?_
  obtain ⟨-, hh⟩ | ⟨-, he⟩ | ⟨-, rfl⟩ | ⟨ha, -⟩ := step_cases hs
  · exact hostStep_advanced hh
  · exact engineStep_advanced h.popAgent (by simpa using ho) he
  · exact sinkStep_advanced s.popAgent
  · exact absurd ha hreset

/-- Settles O51: every agent's step advances the offset by what it emits. -/
theorem offsetNeverDecreases : Obligations.OffsetNeverDecreases := by
  intro s t h hs ho hreset
  obtain ⟨hmono, hfault, hemitted⟩ := step_advanced h ho hreset hs
  exact ⟨hmono, hfault, hemitted⟩

/-! ### `HOLD` -/

/-- A record in PROC or DRAIN whose stage waits stays as it is. -/
theorem procStage_of_hold {s : State} {record : DrainStage → Pending}
    (hwaits : (s.cur = some (record .proc) ∧ s.pad < s.fill ∧ s.outQ ≠ []) ∨
      (s.cur = some (record .drain) ∧ ¬ s.pad < s.fill ∧ s.outQ ≠ [])) (P : Primitive) (finish : State → State) :
    procStage P record finish s = .next s := by
  obtain ⟨hcur, hdata, hq⟩ | ⟨hcur, hdata, hq⟩ := hwaits
  · rw [procStage_of_queued hdata hq, ← hcur]
  · rw [procStage, if_neg hdata, drainStage_of_queued hq, ← hcur]

/-- Where the PROC and DRAIN stages answer the same state, one of them waits. -/
theorem procStage_self {P : Primitive} {s : State} {record : DrainStage → Pending} {finish : State → State}
    {p : Pending} (hcur : s.cur = some p) (hfinish : ∀ u, (finish u).cur = none)
    (hs : procStage P record finish s = .next s) :
    (s.cur = some (record .proc) ∧ s.pad < s.fill ∧ s.outQ ≠ []) ∨ (s.cur = some (record .drain) ∧ s.outQ ≠ []) := by
  have hdrain {u : State} (hd : drainStage record finish u = .next s) :
      s.cur = some (record .drain) ∧ s.outQ ≠ [] := by
    obtain ⟨-, hs⟩ | ⟨hq, hs⟩ := drainStage_cases hd
    · rw [hs, hfinish] at hcur; cases hcur
    · rw [hs]; exact ⟨rfl, hq⟩
  obtain ⟨-, hd⟩ | ⟨hdata, hq, hs⟩ | ⟨-, hq, ⟨u, -, hd⟩ | ⟨u, -, hs⟩⟩ := procStage_cases hs
  · exact .inr (hdrain hd)
  · exact .inl ⟨congrArg State.cur hs, hdata, hq⟩
  · exact absurd hq (hdrain hd).2
  · rw [hs] at hcur; cases hcur

/-- INIT always ends at once. -/
theorem initCommand_cur (s : State) (kl : BitVec 2) (ivb : BitVec 5) (key32 : List Byte) (iv16 : Block) (ioff : DWord)
    (bufreq : Word) : (initCommand kl ivb key32 iv16 ioff bufreq s).cur = none := by
  unfold initCommand
  split
  · rfl
  · split
    · rfl
    · split
      · rfl
      · split <;> rfl

/-- A full buffer takes no byte. -/
theorem State.appended_of_full {s : State} (hfull : s.fill = s.cap) (rem : List Byte) : s.appended rem = s := by
  have hnone : s.cap - s.fill = 0 := by omega
  rw [State.appended, hnone, List.take_zero]
  rfl

theorem exec_of_hold {s : State} {p : Pending} {i : Instr} (h : s.Inv) (hcur : s.cur = some p)
    (hi : p.instr = some i) (hhold : s.hold = true) : exec i s = .next s := by
  have hp := h.pendingWf
  rw [State.pendingOk, hcur] at hp
  rw [State.hold, hcur] at hhold
  cases p with
  | nop | derive _ _ | init _ _ _ _ _ _ | illegal => cases hhold
  | write n rem stage =>
    cases hi
    cases stage with
    | start => cases hhold
    | run =>
      obtain ⟨hfull, hq⟩ := of_decide_eq_true hhold
      obtain ⟨ho, -⟩ := hp
      have hsame := State.appended_of_full hfull rem
      have hcap : s.cap ≤ Config.bufMax := (h.capRange (by simp [ho])).2.1
      rw [exec, execWrite, writeCommand_run hcur, writeLoop_of_queued hcap (by rw [hsame, hfull]) hq, hsame, hfull,
        Nat.sub_self, List.drop_zero, ← hcur]
  | flush stage =>
    cases hi
    rw [exec, execFlush]
    cases stage with
    | start => cases hhold
    | proc =>
      rw [flushCommand_opened h hp hcur]
      exact procStage_of_hold (.inl ⟨hcur, of_decide_eq_true hhold⟩) _ _
    | drain =>
      obtain ⟨ho, hpad⟩ := hp
      rw [flushCommand_opened h ho hcur]
      exact procStage_of_hold (.inr ⟨hcur, by omega, of_decide_eq_true hhold⟩) _ _
  | close stage =>
    cases hi
    rw [exec, execClose]
    cases stage with
    | start => cases hhold
    | proc =>
      rw [closeCommand_opened h hp hcur]
      exact procStage_of_hold (.inl ⟨hcur, of_decide_eq_true hhold⟩) _ _
    | drain =>
      obtain ⟨ho, hpad⟩ := hp
      rw [closeCommand_opened h ho hcur]
      exact procStage_of_hold (.inr ⟨hcur, by omega, of_decide_eq_true hhold⟩) _ _

/-- A loop that answers the state it started from is held: every other answer has ended the WRITE. -/
theorem WriteReady.hold_of_loop_self {P : Primitive} {n : Nat} {rem : List Byte} {s : State} {p : Pending}
    (h : WriteReady s rem) (hcur : s.cur = some p) (hs : writeLoop P n 2 rem s = .next s) : s.hold = true := by
  obtain ⟨-, hloop⟩ | ⟨hfull, hq, hloop⟩ | ⟨-, -, ⟨-, hloop⟩ | ⟨-, hloop⟩⟩ :=
    h.loop_cases (P := P) (n := n) (rounds := 0)
  all_goals have hself := Host.Outcome.next.inj (hs.symm.trans hloop)
  · rw [hself] at hcur; cases hcur
  · have hrun : s.cur = some (.write n (rem.drop (s.cap - s.fill)) .run) := congrArg State.cur hself
    have hfill : s.fill = s.cap := (congrArg State.fill hself).trans hfull
    rw [State.hold, hrun]
    exact decide_eq_true ⟨hfill, hq⟩
  · rw [hself] at hcur; cases hcur
  · rw [hself] at hcur; cases hcur

theorem hold_of_exec_self {s : State} {p : Pending} {i : Instr} (h : s.Inv) (hcur : s.cur = some p)
    (hi : p.instr = some i) (hs : exec i s = .next s) : s.hold = true := by
  have hended {t : State} (hs : Host.Outcome.next (φ := Fault) (ρ := Refusal) t = .next s) (ht : t.cur = none) :
      s.hold = true := by
    cases hs
    rw [ht] at hcur
    cases hcur
  cases p with
  | illegal => cases hi
  | nop => cases hi; exact hended ((exec_nop hcur).symm.trans hs) rfl
  | derive tiv tcnt => cases hi; exact hended ((exec_derive hcur).symm.trans hs) rfl
  | init kl ivb key32 iv16 ioff bufreq =>
    cases hi
    exact hended ((exec_init hcur).symm.trans hs) (initCommand_cur s kl ivb key32 iv16 ioff bufreq)
  | write n rem stage =>
    cases hi
    obtain ⟨c, -, hfail⟩ | ⟨hready, -, hloop⟩ := writeCommand_cases Config.primitive h hcur
    · exact hended (hfail.symm.trans hs) rfl
    · exact hready.hold_of_loop_self hcur (hloop.symm.trans hs)
  | flush stage =>
    cases hi
    obtain ⟨c, -, hfail⟩ | ⟨-, hproc⟩ := flushCommand_cases Config.primitive h hcur
    · exact hended (hfail.symm.trans hs) rfl
    · obtain ⟨hcur, hdata, hq⟩ | ⟨hcur, hq⟩ := procStage_self hcur (fun _ => rfl) (hproc.symm.trans hs)
      · rw [State.hold, hcur]; exact decide_eq_true ⟨hdata, hq⟩
      · rw [State.hold, hcur]; exact decide_eq_true hq
  | close stage =>
    cases hi
    obtain ⟨c, -, hfail⟩ | ⟨-, hclosed⟩ | ⟨-, hproc⟩ := closeCommand_cases Config.primitive h hcur
    · exact hended (hfail.symm.trans hs) rfl
    · exact hended (hclosed.symm.trans hs) rfl
    · obtain ⟨hcur, hdata, hq⟩ | ⟨hcur, hq⟩ := procStage_self hcur (fun _ => rfl) (hproc.symm.trans hs)
      · rw [State.hold, hcur]; exact decide_eq_true ⟨hdata, hq⟩
      · rw [State.hold, hcur]; exact decide_eq_true hq

/-- Settles O35: a command that waits keeps its record, and every other answer changes the record or ends the
command. -/
theorem holdMeansTheCommandWaits : Obligations.HoldMeansTheCommandWaits :=
  fun _ _ _ h hcur hi => ⟨exec_of_hold h hcur hi, hold_of_exec_self h hcur hi⟩

end Sys2Proof.Machine
end

section
/-!
PROOFS. The output law (41_stream_transform.md R171 to R175): the transform is its own inverse and can be resumed at any
position, and what an open stream has emitted is the transform of the data bytes up to its offset.
-/

namespace Sys2Proof.Machine

/-! ### The transform -/

/-- The keystream byte of a position cancels itself (R172). -/
theorem streamXor_streamXor (P : Primitive) (key : List Byte) (biv : Block) (pos : Nat) (data : List Byte) :
    streamXor P key biv pos (streamXor P key biv pos data) = data := by
  induction data generalizing pos with
  | nil => rfl
  | cons d data ih => rw [streamXor, streamXor, ih, BitVec.xor_assoc, BitVec.xor_self, BitVec.xor_zero]

/-- Settles O59: by induction on the data, a position at a time. -/
theorem transformTwiceIsIdentity : Obligations.TransformTwiceIsIdentity :=
  streamXor_streamXor

theorem streamXor_injective {P : Primitive} {key : List Byte} {biv : Block} {pos : Nat} {a b : List Byte}
    (h : streamXor P key biv pos a = streamXor P key biv pos b) : a = b := by
  rw [← streamXor_streamXor P key biv pos a, h, streamXor_streamXor]

theorem streamXor_take (P : Primitive) (key : List Byte) (biv : Block) (pos k : Nat) (data : List Byte) :
    (streamXor P key biv pos data).take k = streamXor P key biv pos (data.take k) := by
  induction k generalizing pos data with
  | zero => rfl
  | succ k ih =>
    cases data with
    | nil => rfl
    | cons d data => rw [streamXor, List.take_succ_cons, List.take_succ_cons, streamXor, ih]

theorem streamXor_drop (P : Primitive) (key : List Byte) (biv : Block) (pos k : Nat) (data : List Byte) :
    (streamXor P key biv pos data).drop k = streamXor P key biv (pos + k) (data.drop k) := by
  induction k generalizing pos data with
  | zero => rfl
  | succ k ih =>
    cases data with
    | nil => rfl
    | cons d data => rw [streamXor, List.drop_succ_cons, List.drop_succ_cons, ih, Nat.add_assoc, Nat.add_comm 1 k]

/-- Settles O60: dropping commutes with the transform, and byte `k` of the result is read off byte `k` of the data. -/
theorem transformResumesAtAnyOffset : Obligations.TransformResumesAtAnyOffset := by
  refine fun P key biv pos k data =>
    ⟨streamXor_drop P key biv pos k data, length_streamXor P key biv pos data, fun data' _ hbyte => ?_⟩
  rw [streamXor_getElem?, streamXor_getElem?, hbyte]

/-! ### Runs of an open stream -/

/-- A step that closes an open stream is the end of its CLOSE, which has delivered everything. -/
theorem step_closed {s t : State} (h : s.Inv) (ho : s.phase = .opened) (hs : step s = .next t)
    (hclosed : t.phase = .closed) : t.waiting = [] ∧ t.eventual Config.primitive = t.sinkLog := by
  obtain ⟨-, hphase⟩ | hsame | ⟨ha, p, hcur, heffect⟩ := step_effect hs
  · rw [hclosed] at hphase; cases hphase
  · rw [hsame.phase, ho] at hclosed; cases hclosed
  · cases heffect with
    | waits hsame => rw [hsame.phase, ho] at hclosed; cases hclosed
    | ends hphase => rw [hphase, ho] at hclosed; cases hclosed
    | faults _ hphase => rw [hclosed] at hphase; cases hphase
    | opens _ _ hphase => rw [hclosed] at hphase; cases hphase
    | closes hp _ hok hidle =>
      obtain ⟨stage, rfl⟩ := hp
      rw [step, ha] at hs
      obtain ⟨hpad, hq⟩ :=
        engineStep_delivered h.popAgent (by simpa using ho) ⟨stage, .inr (by simpa using hcur)⟩ hs hidle hok
      exact State.eventual_of_delivered hpad hq hidle Config.primitive

/-- A run that is open at every step's start and ends closed. -/
theorem run_closed {k : Nat} {s t : State} (h : s.Inv) (ho : s.phase = .opened) (hopen : openRun k s = true)
    (hr : run k s = .next t) (hclosed : t.phase = .closed) :
    t.waiting = [] ∧ t.eventual Config.primitive = t.sinkLog := by
  induction k generalizing s with
  | zero => cases hr; rw [ho] at hclosed; cases hclosed
  | succ k ih =>
    obtain ⟨u, hs, hr⟩ := run_succ hr
    obtain ⟨-, -, hopen⟩ := openRun_succ hopen hs
    cases k with
    | zero => cases hr; exact step_closed h ho hs hclosed
    | succ k =>
      obtain ⟨v, hu, -⟩ := run_succ hr
      obtain ⟨huopen, -, -⟩ := openRun_succ hopen hu
      exact ih (step_inv h hs) huopen hopen hr

/-- Along a run the offset advances by the bytes emitted. -/
theorem run_advanced {k : Nat} {s t : State} (h : s.Inv) (hopen : openRun k s = true) (hr : run k s = .next t) :
    s.off.toNat ≤ t.off.toNat ∧
      t.off.toNat + s.outQ.length + s.sinkLog.length = s.off.toNat + t.outQ.length + t.sinkLog.length := by
  induction k generalizing s with
  | zero => cases hr; exact ⟨Nat.le_refl _, rfl⟩
  | succ k ih =>
    obtain ⟨u, hs, hr⟩ := run_succ hr
    obtain ⟨ho, hreset, hopen⟩ := openRun_succ hopen hs
    obtain ⟨hmono, -, hemitted⟩ := step_advanced h ho hreset hs
    obtain ⟨hmono', hemitted'⟩ := ih (step_inv h hs) hopen hr
    omega

/-- The bytes of the output law, and under which key and base IV those still waiting will be transformed. -/
theorem run_eventual {k : Nat} {s t : State} (h : s.Inv) (ho : s.phase = .opened) (hopen : openRun k s = true)
    (hr : run k s = .next t) (hfault : t.phase ≠ .fault) :
    t.eventual Config.primitive =
        s.eventual Config.primitive ++
          streamXor Config.primitive s.key s.biv (s.off.toNat + s.waiting.length) (acceptedData k s) ∧
      (t.waiting = [] ∨ (t.key = s.key ∧ t.biv = s.biv)) := by
  cases run_outcome h ho hopen hr with
  | running _ haccount =>
    exact ⟨congrArg StreamAccount.eventual haccount,
      .inr ⟨congrArg StreamAccount.key haccount, congrArg StreamAccount.biv haccount⟩⟩
  | closed hclosed hdelivered =>
    obtain ⟨hwaiting, heventual⟩ := run_closed h ho hopen hr hclosed
    exact ⟨heventual.trans hdelivered, .inl hwaiting⟩
  | faulted hf => exact absurd hf hfault

/-- Settles O55: the account of the stream at the end of the run is that of its start with the data taken in. -/
theorem outputLaw : Obligations.OutputLaw :=
  fun _ _ _ h ho hopen hr hfault => (run_eventual h ho hopen hr hfault).1

/-- A list split in two ways, the first part of one being `n` longer than that of the other. -/
theorem append_eq_append_of_length {a b c d : List Byte} {n : Nat} (h : a ++ b = c ++ d)
    (hlen : a.length = c.length + n) : a = c ++ d.take n ∧ b = d.drop n := by
  have htake := congrArg (List.take a.length) h
  have hdrop := congrArg (List.drop a.length) h
  rw [List.take_left, hlen, List.take_length_add_append] at htake
  rw [List.drop_left, hlen, List.drop_length_add_append] at hdrop
  exact ⟨htake, hdrop⟩

/-- Settles O56: the law's bytes are cut where the emitted ones end, which the offset counts; behind the cut the
transform is inverted. -/
theorem outputLawFromAnEmptyBuffer : Obligations.OutputLawFromAnEmptyBuffer := by
  intro k s t h ho hwaiting hq hopen hr hfault n
  obtain ⟨hmono, hemitted⟩ := run_advanced h hopen hr
  obtain ⟨heventual, hkey⟩ := run_eventual h ho hopen hr hfault
  have hoff : t.off.toNat = s.off.toNat + n := by omega
  have hstart : s.eventual Config.primitive = s.sinkLog := by
    rw [State.eventual, hwaiting, hq, streamXor, List.append_nil, List.append_nil]
  rw [hstart, hwaiting, List.length_nil, Nat.add_zero, State.eventual] at heventual
  rw [hq, List.length_nil] at hemitted
  obtain ⟨hsink, hrest⟩ := append_eq_append_of_length (n := n) heventual (by rw [List.length_append]; omega)
  rw [streamXor_take] at hsink
  rw [streamXor_drop, ← hoff] at hrest
  have hlen := congrArg List.length heventual
  simp only [List.length_append, length_streamXor] at hlen
  refine ⟨hmono, by omega, hsink, ?_⟩
  obtain hnone | ⟨hkey, hbiv⟩ := hkey
  · have hcount := congrArg List.length hrest
    rw [length_streamXor, length_streamXor, hnone] at hcount
    rw [hnone]
    exact (List.eq_nil_of_length_eq_zero hcount.symm).symm
  · rw [hkey, hbiv] at hrest
    exact streamXor_injective hrest

end Sys2Proof.Machine
end

section
/-!
PROOFS. Two states run side by side. A simulation is a relation between states that every operation of a command keeps;
what it says of a command's answers then follows once for all commands. Three statements are instances: an accepted
command against one not yet accepted (10_state.md R23), a register written after acceptance (70_reset R281), and two
states that differ in their secrets (20_memory.md R91, 60_exceptions.md R241).
-/

namespace Sys2Proof.Machine

/-! ### Pairs of answers and records -/

/-- Two answers of the same kind: next states in the relation, or the same fault or refusal. -/
inductive OutcomePaired (R : State → State → Prop) :
    Host.Outcome State Fault Refusal → Host.Outcome State Fault Refusal → Prop where
  | next {s t : State} (h : R s t) : OutcomePaired R (.next s) (.next t)
  | fault (f : Fault) : OutcomePaired R (.fault f) (.fault f)
  | refused (r : Refusal) : OutcomePaired R (.refused r) (.refused r)

/-- Two byte lists of the same length, with the same bytes if the pair is `exact`. -/
structure BytesPaired (exact : Prop) (a b : List Byte) : Prop where
  length : a.length = b.length
  eq : exact → a = b

/-- Records of the same command at the same stage, INIT apart: the data bytes of a WRITE are paired. -/
inductive RecordPaired (exact : Prop) : Pending → Pending → Prop where
  | nop : RecordPaired exact .nop .nop
  | write (n : Nat) {rem rem' : List Byte} (stage : WriteStage) (h : BytesPaired exact rem rem') :
      RecordPaired exact (.write n rem stage) (.write n rem' stage)
  | flush (stage : DrainStage) : RecordPaired exact (.flush stage) (.flush stage)
  | close (stage : DrainStage) : RecordPaired exact (.close stage) (.close stage)
  | derive (tiv : Block) (tcnt : DWord) : RecordPaired exact (.derive tiv tcnt) (.derive tiv tcnt)
  | illegal : RecordPaired exact .illegal .illegal

/-- What the control of a command reads. -/
structure SameShape (s t : State) : Prop where
  phase : s.phase = t.phase
  cap : s.cap = t.cap
  off : s.off = t.off
  fill : s.fill = t.fill
  queued : s.outQ.length = t.outQ.length
  calls : s.primLog.length = t.primLog.length

theorem SameShape.pad {s t : State} (h : SameShape s t) : s.pad = t.pad := by rw [State.pad, State.pad, h.off]

theorem SameShape.outQ_eq_nil {s t : State} (h : SameShape s t) : s.outQ = [] ↔ t.outQ = [] := by
  rw [← List.length_eq_zero_iff, h.queued, List.length_eq_zero_iff]

theorem SameShape.full {s t : State} (h : SameShape s t) : s.fill = s.cap ↔ t.fill = t.cap := by rw [h.fill, h.cap]

theorem SameShape.data {s t : State} (h : SameShape s t) : s.pad < s.fill ↔ t.pad < t.fill := by rw [h.pad, h.fill]

theorem SameShape.stagedCount {s t : State} (h : SameShape s t) : s.stagedCount = t.stagedCount := by
  rw [State.stagedCount, State.stagedCount, h.fill, h.pad]

theorem SameShape.blockCount {s t : State} (h : SameShape s t) : s.blockCount = t.blockCount := by
  rw [State.blockCount, State.blockCount, h.fill]

theorem SameShape.pastOffsetLimit {s t : State} (h : SameShape s t) (n : Nat) :
    s.pastOffsetLimit n = t.pastOffsetLimit n := by
  rw [State.pastOffsetLimit, State.pastOffsetLimit, h.off, h.stagedCount]

/-- `HOLD` is the same for paired records (R28). -/
theorem SameShape.hold {s t : State} (h : SameShape s t) {exact : Prop} {p q : Pending} (hs : s.cur = some p)
    (ht : t.cur = some q) (hpq : RecordPaired exact p q) : s.hold = t.hold := by
  rw [State.hold, State.hold, hs, ht]
  cases hpq with
  | nop | derive _ _ | illegal => rfl
  | write n stage hrem =>
    cases stage with
    | start => rfl
    | run => simp only [h.fill, h.cap, ne_eq, h.outQ_eq_nil]
  | flush stage | close stage =>
    cases stage with
    | start => rfl
    | proc => simp only [h.fill, h.pad, ne_eq, h.outQ_eq_nil]
    | drain => simp only [ne_eq, h.outQ_eq_nil]

/-! ### Simulations -/

/-- One byte appended at the fill (`append_in`, R90). -/
def State.push (s : State) (b : Byte) : State := { s with bufIn := s.bufIn.write s.fill b, fill := s.fill + 1 }

theorem State.appendIn_eq (s : State) (b : Byte) :
    s.appendIn b = if s.fill < Config.bufMax then .ok (s.push b) else .error (.bufferIndex s.fill) := rfl

/-- `process` in any state, with the states of `process_eq_processed`. -/
theorem process_eq_ite (P : Primitive) (s : State) :
    process P s =
      if s.fill = s.pad then .done s
      else if Config.bufMax < s.fill then .badIndex Config.bufMax
      else if callsSucceed P s.primLog.length s.blockCount then .done (s.processed P)
      else .failed (s.failedCalls P) := by
  by_cases hdata : s.fill = s.pad
  · rw [process, if_pos hdata, if_pos hdata]
  · by_cases hfit : Config.bufMax < s.fill
    · rw [process, if_neg hdata, if_neg hdata, if_pos hfit, if_pos hfit]
    · rw [process_eq_processed P hdata (by omega), if_neg hdata, if_neg hfit]

/-- `Mid` relates the states while a command runs, `End` those it answers: every operation of the commands other than
INIT keeps the one or leads to the other. -/
structure Simulation (P : Primitive) (exact : Prop) (Mid End : State → State → Prop) : Prop where
  shape : ∀ {s t}, Mid s t → SameShape s t
  push : ∀ {s t b b'}, Mid s t → (exact → b = b') → Mid (s.push b) (t.push b')
  processed : ∀ {s t}, Mid s t → Mid (s.processed P) (t.processed P)
  failedCalls : ∀ {s t}, Mid s t → Mid (s.failedCalls P) (t.failedCalls P)
  finish : ∀ {s t}, Mid s t → ∀ c, End (s.finish c) (t.finish c)
  enterFault : ∀ {s t}, Mid s t → End s.enterFault t.enterFault
  closeInstance : ∀ {s t}, Mid s t → End s.closeInstance t.closeInstance
  closeFaulted : ∀ {s t}, Mid s t → End { s with phase := .closed }.succeed { t with phase := .closed }.succeed
  derive : ∀ {s t}, Mid s t → ∀ x, End { s with div := x }.succeed { t with div := x }.succeed
  record : ∀ {s t p q}, Mid s t → RecordPaired exact p q → End { s with cur := some p } { t with cur := some q }

section Commands

variable {P : Primitive} {exact : Prop} {Mid End : State → State → Prop}

/-- The append loop answers the same fault, or paired rests and states. -/
theorem Simulation.appendWhile (hsim : Simulation P exact Mid End) {rem rem' : List Byte} {s t : State}
    (h : Mid s t) (hrem : BytesPaired exact rem rem') :
    (∃ f, appendWhile rem s = .error f ∧ appendWhile rem' t = .error f) ∨
    (∃ rest rest' u v, appendWhile rem s = .ok (rest, u) ∧ appendWhile rem' t = .ok (rest', v) ∧
      BytesPaired exact rest rest' ∧ Mid u v) := by
  induction rem generalizing rem' s t with
  | nil =>
    obtain rfl : rem' = [] := List.eq_nil_of_length_eq_zero hrem.length.symm
    exact .inr ⟨[], [], s, t, rfl, rfl, hrem, h⟩
  | cons b rem ih =>
    cases rem' with
    | nil => cases hrem.length
    | cons b' rem' =>
      have hshape := hsim.shape h
      have htail : BytesPaired exact rem rem' :=
        ⟨Nat.succ.inj hrem.length, fun hx => (List.cons.inj (hrem.eq hx)).2⟩
      have hpush : Mid (s.push b) (t.push b') := hsim.push h fun hx => (List.cons.inj (hrem.eq hx)).1
      rw [Machine.appendWhile, Machine.appendWhile, State.appendIn_eq, State.appendIn_eq, ← hshape.fill, ← hshape.cap]
      by_cases hroom : s.fill < s.cap
      · rw [if_pos hroom, if_pos hroom]
        by_cases hfit : s.fill < Config.bufMax
        · rw [if_pos hfit, if_pos hfit]
          exact ih hpush htail
        · rw [if_neg hfit, if_neg hfit]
          exact .inl ⟨_, rfl, rfl⟩
      · rw [if_neg hroom, if_neg hroom]
        exact .inr ⟨_, _, s, t, rfl, rfl, hrem, h⟩

theorem Simulation.process (hsim : Simulation P exact Mid End) {s t : State} (h : Mid s t) :
    (∃ u v, process P s = .done u ∧ process P t = .done v ∧ Mid u v) ∨
    (∃ u v, process P s = .failed u ∧ process P t = .failed v ∧ Mid u v) ∨
    (∃ i, process P s = .badIndex i ∧ process P t = .badIndex i) := by
  have hshape := hsim.shape h
  rw [process_eq_ite, process_eq_ite, ← hshape.fill, ← hshape.pad, ← hshape.calls, ← hshape.blockCount]
  by_cases hnone : s.fill = s.pad
  · rw [if_pos hnone, if_pos hnone]
    exact .inl ⟨s, t, rfl, rfl, h⟩
  · rw [if_neg hnone, if_neg hnone]
    by_cases hfit : Config.bufMax < s.fill
    · rw [if_pos hfit, if_pos hfit]
      exact .inr (.inr ⟨_, rfl, rfl⟩)
    · rw [if_neg hfit, if_neg hfit]
      by_cases hcalls : callsSucceed P s.primLog.length s.blockCount = true
      · rw [if_pos hcalls, if_pos hcalls]
        exact .inl ⟨_, _, rfl, rfl, hsim.processed h⟩
      · rw [if_neg hcalls, if_neg hcalls]
        exact .inr (.inl ⟨_, _, rfl, rfl, hsim.failedCalls h⟩)

theorem Simulation.writeLoop (hsim : Simulation P exact Mid End) (n rounds : Nat) {rem rem' : List Byte} {s t : State}
    (h : Mid s t) (hrem : BytesPaired exact rem rem') :
    OutcomePaired End (writeLoop P n rounds rem s) (writeLoop P n rounds rem' t) := by
  induction rounds generalizing rem rem' s t with
  | zero => exact .next (hsim.record h (.write n .run hrem))
  | succ rounds ih =>
    rw [Machine.writeLoop, Machine.writeLoop]
    obtain ⟨f, hs, ht⟩ | ⟨rest, rest', u, v, hs, ht, hrest, huv⟩ := hsim.appendWhile h hrem
    · rw [hs, ht]
      exact .fault f
    · have hshape := hsim.shape huv
      rw [hs, ht]
      dsimp only
      by_cases hfull : u.fill = u.cap
      · rw [if_pos hfull, if_pos (hshape.full.mp hfull)]
        by_cases hq : u.outQ = []
        · rw [if_pos hq, if_pos (hshape.outQ_eq_nil.mp hq)]
          obtain ⟨u', v', hu, hv, huv'⟩ | ⟨u', v', hu, hv, huv'⟩ | ⟨i, hu, hv⟩ := hsim.process huv
          · rw [hu, hv]
            exact ih huv' hrest
          · rw [hu, hv]
            exact .next (hsim.enterFault huv')
          · rw [hu, hv]
            exact .fault _
        · rw [if_neg hq, if_neg (mt hshape.outQ_eq_nil.mpr hq)]
          exact .next (hsim.record huv (.write n .run hrest))
      · rw [if_neg hfull, if_neg (mt hshape.full.mpr hfull)]
        exact .next (hsim.finish huv .ok)

theorem Simulation.drainStage (hsim : Simulation P exact Mid End) {record : DrainStage → Pending}
    (hrecord : ∀ stage, RecordPaired exact (record stage) (record stage)) {finish : State → State}
    (hfinish : ∀ {s t}, Mid s t → End (finish s) (finish t)) {s t : State} (h : Mid s t) :
    OutcomePaired End (drainStage record finish s) (drainStage record finish t) := by
  have hshape := hsim.shape h
  rw [Machine.drainStage, Machine.drainStage]
  by_cases hq : s.outQ = []
  · rw [if_pos hq, if_pos (hshape.outQ_eq_nil.mp hq)]
    exact .next (hfinish h)
  · rw [if_neg hq, if_neg (mt hshape.outQ_eq_nil.mpr hq)]
    exact .next (hsim.record h (hrecord .drain))

theorem Simulation.procStage (hsim : Simulation P exact Mid End) {record : DrainStage → Pending}
    (hrecord : ∀ stage, RecordPaired exact (record stage) (record stage)) {finish : State → State}
    (hfinish : ∀ {s t}, Mid s t → End (finish s) (finish t)) {s t : State} (h : Mid s t) :
    OutcomePaired End (procStage P record finish s) (procStage P record finish t) := by
  have hshape := hsim.shape h
  rw [Machine.procStage, Machine.procStage]
  by_cases hdata : s.pad < s.fill
  · rw [if_pos hdata, if_pos (hshape.data.mp hdata)]
    by_cases hq : s.outQ = []
    · rw [if_pos hq, if_pos (hshape.outQ_eq_nil.mp hq)]
      obtain ⟨u, v, hu, hv, huv⟩ | ⟨u, v, hu, hv, huv⟩ | ⟨i, hu, hv⟩ := hsim.process h
      · rw [hu, hv]
        exact hsim.drainStage hrecord hfinish huv
      · rw [hu, hv]
        exact .next (hsim.enterFault huv)
      · rw [hu, hv]
        exact .fault _
    · rw [if_neg hq, if_neg (mt hshape.outQ_eq_nil.mpr hq)]
      exact .next (hsim.record h (hrecord .proc))
  · rw [if_neg hdata, if_neg (mt hshape.data.mpr hdata)]
    exact hsim.drainStage hrecord hfinish h

theorem Simulation.writeCommand (hsim : Simulation P exact Mid End) {n : Nat} {rem rem' : List Byte}
    {stage : WriteStage} {s t : State} (h : Mid s t) (hs : s.recordFor (.write n) = some (.write n rem stage))
    (ht : t.recordFor (.write n) = some (.write n rem' stage)) (hrem : BytesPaired exact rem rem') :
    OutcomePaired End (writeCommand P n s) (writeCommand P n t) := by
  have hshape := hsim.shape h
  rw [Machine.writeCommand, Machine.writeCommand, hs, ht]
  cases stage with
  | start =>
    dsimp only
    rw [← hshape.phase, ← hshape.pastOffsetLimit, ← hrem.length]
    cases s.phase with
    | uninit | closed | fault => exact .next (hsim.finish h _)
    | opened =>
      by_cases hpast : s.pastOffsetLimit rem.length = true
      · rw [if_pos hpast, if_pos hpast]
        exact .next (hsim.finish h _)
      · rw [if_neg hpast, if_neg hpast]
        exact hsim.writeLoop n 2 h hrem
  | run => exact hsim.writeLoop n 2 h hrem

theorem Simulation.flushCommand (hsim : Simulation P exact Mid End) {stage : DrainStage} {s t : State} (h : Mid s t)
    (hs : s.recordFor .flush = some (.flush stage)) (ht : t.recordFor .flush = some (.flush stage)) :
    OutcomePaired End (flushCommand P s) (flushCommand P t) := by
  have hproc := hsim.procStage (finish := State.succeed) RecordPaired.flush (fun h => hsim.finish h .ok) h
  rw [Machine.flushCommand, Machine.flushCommand, hs, ht]
  cases stage with
  | start =>
    dsimp only
    rw [← (hsim.shape h).phase]
    cases s.phase with
    | uninit | closed | fault => exact .next (hsim.finish h _)
    | opened => exact hproc
  | proc => exact hproc
  | drain => exact hsim.drainStage RecordPaired.flush (fun h => hsim.finish h .ok) h

theorem Simulation.closeCommand (hsim : Simulation P exact Mid End) {stage : DrainStage} {s t : State} (h : Mid s t)
    (hs : s.recordFor .close = some (.close stage)) (ht : t.recordFor .close = some (.close stage)) :
    OutcomePaired End (closeCommand P s) (closeCommand P t) := by
  have hproc := hsim.procStage RecordPaired.close hsim.closeInstance h
  rw [Machine.closeCommand, Machine.closeCommand, hs, ht]
  cases stage with
  | start =>
    dsimp only
    rw [← (hsim.shape h).phase]
    cases s.phase with
    | uninit | closed => exact .next (hsim.finish h _)
    | fault => exact .next (hsim.closeFaulted h)
    | opened => exact hproc
  | proc => exact hproc
  | drain => exact hsim.drainStage RecordPaired.close hsim.closeInstance h

/-- Every command but INIT, from paired records. -/
theorem Simulation.exec (hsim : Simulation Config.primitive exact Mid End) {i : Instr} {p q : Pending} {s t : State}
    (h : Mid s t) (hs : s.recordFor i = some p) (ht : t.recordFor i = some q) (hpq : RecordPaired exact p q) :
    OutcomePaired End (exec i s) (exec i t) := by
  have hi := State.recordFor_instr hs
  cases hpq with
  | illegal => cases hi
  | nop =>
    cases hi
    rw [Machine.exec, Machine.exec, execNop, execNop, hs, ht]
    exact .next (hsim.finish h .ok)
  | derive tiv tcnt =>
    cases hi
    rw [Machine.exec, Machine.exec, execDerive, execDerive, hs, ht]
    exact .next (hsim.derive h _)
  | write n stage hrem => cases hi; exact hsim.writeCommand h hs ht hrem
  | flush stage => cases hi; exact hsim.flushCommand h hs ht
  | close stage => cases hi; exact hsim.closeCommand h hs ht

/-- The engine's step on paired records. -/
theorem Simulation.engineStep (hsim : Simulation Config.primitive exact Mid End) {p q : Pending} {s t : State}
    (h : Mid s t) (hsame : End s t) (hs : s.cur = some p) (ht : t.cur = some q) (hpq : RecordPaired exact p q) :
    OutcomePaired End (engineStep s) (engineStep t) := by
  have hhold : s.hold = t.hold := (hsim.shape h).hold hs ht hpq
  have hinstr : p.instr = q.instr := by cases hpq <;> rfl
  rw [Machine.engineStep, Machine.engineStep, hs, ht]
  dsimp only
  rw [← hhold, ← hinstr]
  cases s.hold with
  | true => exact .next hsame
  | false =>
    cases hi : p.instr with
    | none => exact .next (hsim.finish h .illegalCommand)
    | some i =>
      exact hsim.exec h (State.recordFor_pending hs hi) (State.recordFor_pending ht (hinstr ▸ hi)) hpq

end Commands

/-- INIT: its checks read the phase and the operands that do not hold secrets. -/
theorem initCommand_paired {R : State → State → Prop} {s t : State} (hphase : s.phase = t.phase) {key key' : List Byte}
    {iv iv' : Block} (hfail : ∀ c, R (s.clearStaging.fail c) (t.clearStaging.fail c))
    (hconstruct : ∀ len cap off,
      R (s.clearStaging.construct (key.take len) iv cap off) (t.clearStaging.construct (key'.take len) iv' cap off))
    (kl : BitVec 2) (ivb : BitVec 5) (ioff : DWord) (bufreq : Word) :
    R (initCommand kl ivb key iv ioff bufreq s) (initCommand kl ivb key' iv' ioff bufreq t) := by
  unfold initCommand
  rw [← hphase]
  split
  · exact hfail _
  · split
    · exact hfail _
    · split
      · exact hfail _
      · split
        · exact hfail _
        · exact hconstruct _ _ _

end Sys2Proof.Machine
end

section
/-!
PROOFS. Acceptance and register writes beside the pending command (10_state.md R23, 70_reset R281): both are simulations
in which a command's answers agree but for what was written.
-/

namespace Sys2Proof.Machine

/-! ### Exact pairs -/

theorem BytesPaired.refl (exact : Prop) (a : List Byte) : BytesPaired exact a a := ⟨rfl, fun _ => rfl⟩

/-- Every record but INIT's is paired with itself. -/
theorem RecordPaired.refl (exact : Prop) {p : Pending}
    (h : ∀ kl ivb key32 iv16 ioff bufreq, p ≠ .init kl ivb key32 iv16 ioff bufreq) : RecordPaired exact p p := by
  cases p with
  | init kl ivb key32 iv16 ioff bufreq => exact absurd rfl (h kl ivb key32 iv16 ioff bufreq)
  | nop => exact .nop
  | write n rem stage => exact .write n stage (.refl exact rem)
  | flush stage => exact .flush stage
  | close stage => exact .close stage
  | derive tiv tcnt => exact .derive tiv tcnt
  | illegal => exact .illegal

theorem RecordPaired.eq {p q : Pending} (h : RecordPaired True p q) : p = q := by
  cases h with
  | write n stage hrem => rw [hrem.eq trivial]
  | nop | flush _ | close _ | derive _ _ | illegal => rfl

theorem OutcomePaired.eq {o o' : Host.Outcome State Fault Refusal} (h : OutcomePaired Eq o o') : o = o' := by
  cases h with
  | next h => rw [h]
  | fault f => rfl
  | refused r => rfl

/-! ### Acceptance -/

/-- The two states differ in the pending record at most. -/
def SameButRecord (s t : State) : Prop := ∃ c, t = { s with cur := c }

theorem sameButRecord_simulation (P : Primitive) : Simulation P True SameButRecord Eq where
  shape := by rintro s _ ⟨c, rfl⟩; exact ⟨rfl, rfl, rfl, rfl, rfl, rfl⟩
  push := by rintro s _ b b' ⟨c, rfl⟩ hb; rw [hb trivial]; exact ⟨c, rfl⟩
  processed := by rintro s _ ⟨c, rfl⟩; exact ⟨c, rfl⟩
  failedCalls := by rintro s _ ⟨c, rfl⟩; exact ⟨c, rfl⟩
  finish := by rintro s _ ⟨c, rfl⟩ code; rfl
  enterFault := by rintro s _ ⟨c, rfl⟩; rfl
  closeInstance := by rintro s _ ⟨c, rfl⟩; rfl
  closeFaulted := by rintro s _ ⟨c, rfl⟩; rfl
  derive := by rintro s _ ⟨c, rfl⟩ x; rfl
  record := by rintro s _ p q ⟨c, rfl⟩ hpq; rw [hpq.eq]

/-- Settles O31: the record runs alike whether or not it is in the state, since the answer replaces it. -/
theorem acceptanceThenEngineStep : Obligations.AcceptanceThenEngineStep := by
  intro s i hidle hwf
  have hdecode := decode_encode hwf
  have haccept : s.accept (encode i) = { s with cur := some (s.sample i) } := by
    rw [State.accept, s.sampleWord_of_ok hdecode]
  refine ⟨haccept, ?_⟩
  rw [haccept]
  have hs := State.recordFor_idle hidle i
  have ht : { s with cur := some (s.sample i) }.recordFor i = some (s.sample i) :=
    State.recordFor_pending rfl (s.sample_instr i)
  have hpair (hi : ∀ kl ivb, i ≠ .init kl ivb) : exec i s = exec i { s with cur := some (s.sample i) } := by
    refine ((sameButRecord_simulation _).exec ⟨_, rfl⟩ hs ht (.refl True ?_)).eq
    intro kl ivb key32 iv16 ioff bufreq hp
    refine hi kl ivb (Option.some.inj ((s.sample_instr i).symm.trans ?_))
    rw [hp]
    rfl
  cases i with
  | init kl ivb =>
    rw [exec, exec, execInit, execInit, hs, ht]
    exact congrArg Host.Outcome.next (initCommand_paired (R := Eq) rfl (fun _ => rfl) (fun _ _ _ => rfl) _ _ _ _)
  | nop | write _ | flush | close | derive => exact hpair (by simp)

/-! ### Register writes -/

/-- A register write commutes with every operation of a command, since no command but INIT writes a register that the
host writes. -/
theorem regWrite_simulation (P : Primitive) (r : Reg) (v : Word) :
    Simulation P True (fun s t => t = r.write s v) (fun s t => t = r.write s v) where
  shape := by rintro s _ rfl; cases r <;> exact ⟨rfl, rfl, rfl, rfl, rfl, rfl⟩
  push := by rintro s _ b b' rfl hb; rw [hb trivial]; cases r <;> rfl
  processed := by rintro s _ rfl; cases r <;> rfl
  failedCalls := by rintro s _ rfl; cases r <;> rfl
  finish := by rintro s _ rfl c; cases r <;> rfl
  enterFault := by rintro s _ rfl; cases r <;> rfl
  closeInstance := by rintro s _ rfl; cases r <;> rfl
  closeFaulted := by rintro s _ rfl; cases r <;> rfl
  derive := by rintro s _ rfl x; cases r <;> rfl
  record := by rintro s _ p q rfl hpq; rw [hpq.eq]; cases r <;> rfl

@[simp] theorem Reg.write_cur (s : State) (r : Reg) (v : Word) : (r.write s v).cur = s.cur := by
  cases r <;> rfl

@[simp] theorem Reg.write_phase (s : State) (r : Reg) (v : Word) : (r.write s v).phase = s.phase := by
  cases r <;> rfl

theorem OutcomePaired.eq_mapNext {f : State → State} {o o' : Host.Outcome State Fault Refusal}
    (h : OutcomePaired (fun s t => t = f s) o o') : o' = mapNext f o := by
  cases h with
  | next h => rw [h]; rfl
  | fault e => rfl
  | refused r => rfl

/-- The engine's step on a pending INIT. -/
theorem engineStep_init {s : State} {kl : BitVec 2} {ivb : BitVec 5} {key32 : List Byte} {iv16 : Block} {ioff : DWord}
    {bufreq : Word} (hcur : s.cur = some (.init kl ivb key32 iv16 ioff bufreq)) :
    engineStep s = .next (initCommand kl ivb key32 iv16 ioff bufreq s) := by
  rw [engineStep_of_pending hcur rfl (by rw [State.hold, hcur]), exec_init hcur]

/-- What INIT leaves of a register write: the write itself, or, for a register that INIT clears, nothing (R203,
R204). -/
theorem Reg.write_clearStaging (s : State) (r : Reg) (v : Word) :
    (r.access ≠ .wo → (r.write s v).clearStaging = r.write s.clearStaging v) ∧
      (r.access = .wo → (r.write s v).clearStaging = s.clearStaging) := by
  cases r with
  | cmd | key _ | iv _ => exact ⟨fun h => absurd rfl h, fun _ => rfl⟩
  | _ => exact ⟨fun _ => rfl, nofun⟩

/-- The rest of INIT commutes with a register write. -/
theorem Reg.write_initEnd (s : State) (r : Reg) (v : Word) :
    (∀ c, (r.write s v).fail c = r.write (s.fail c) v) ∧
      ∀ key biv cap off, (r.write s v).construct key biv cap off = r.write (s.construct key biv cap off) v := by
  cases r <;> exact ⟨fun _ => rfl, fun _ _ _ _ => rfl⟩

/-- Settles O34: a register write commutes with every command; INIT clears the registers with which it would not. -/
theorem operandWritesDoNotReachThePendingCommand : Obligations.OperandWritesDoNotReachThePendingCommand := by
  refine fun s p r v hcur => ⟨fun hkeeps => ?_, fun kl ivb key32 iv16 ioff bufreq hp hwo => ?_⟩
  · have hcur' : (r.write s v).cur = some p := by rw [Reg.write_cur, hcur]
    by_cases hinit : ∀ kl ivb key32 iv16 ioff bufreq, p ≠ .init kl ivb key32 iv16 ioff bufreq
    · exact ((regWrite_simulation _ r v).engineStep rfl rfl hcur hcur' (.refl True hinit)).eq_mapNext
    · have hclear := (Reg.write_clearStaging s r v).1 (hkeeps.resolve_left hinit)
      obtain ⟨hfail, hconstruct⟩ := Reg.write_initEnd s.clearStaging r v
      push Not at hinit
      obtain ⟨kl, ivb, key32, iv16, ioff, bufreq, rfl⟩ := hinit
      rw [engineStep_init hcur, engineStep_init hcur', mapNext]
      refine congrArg _ (initCommand_paired (R := fun t u => u = r.write t v) (by simp) (fun c => ?_)
        (fun len cap off => ?_) kl ivb ioff bufreq)
      · rw [hclear, hfail]
      · rw [hclear, hconstruct]
  · subst hp
    have hclear := (Reg.write_clearStaging s r v).2 hwo
    rw [engineStep_init hcur, engineStep_init (by rw [Reg.write_cur, hcur])]
    refine congrArg _ (initCommand_paired (R := fun t u => u = t) (by simp) (fun c => ?_) (fun len cap off => ?_)
      _ _ _ _)
    · rw [hclear]
    · rw [hclear]

end Sys2Proof.Machine
end

section
/-!
PROOFS. What the host can see (20_memory.md R91, 60_exceptions.md R241): two states that differ in keys, IVs and the
bytes in the buffers take steps that do.
-/

namespace Sys2Proof.Machine

/-! ### Records and registers -/

/-- The two states look the same but for the pending record. -/
def SameViewButRecord (s t : State) : Prop := { s with cur := none }.sameView { t with cur := none }

theorem RecordPaired.sameView {p q : Pending} (h : RecordPaired False p q) : p.sameView q := by
  cases h with
  | write n stage hrem => exact ⟨rfl, hrem.length, rfl⟩
  | nop | flush _ | close _ | derive _ _ | illegal => rfl

/-- Records that look the same are of the same command: paired, or of an INIT that differs in key and IV. -/
theorem Pending.sameView_cases {p q : Pending} (h : p.sameView q) :
    RecordPaired False p q ∨
      ∃ kl ivb key key' iv iv' ioff bufreq,
        p = .init kl ivb key iv ioff bufreq ∧ q = .init kl ivb key' iv' ioff bufreq := by
  cases p with
  | init kl ivb key iv ioff bufreq =>
    cases q with
    | init kl' ivb' key' iv' ioff' bufreq' =>
      obtain ⟨rfl, rfl, rfl, rfl⟩ := h
      exact .inr ⟨_, _, _, _, _, _, _, _, rfl, rfl⟩
    | _ => cases h
  | write n rem stage =>
    cases q with
    | write n' rem' stage' =>
      obtain ⟨rfl, hlen, rfl⟩ := h
      exact .inl (.write n stage ⟨hlen, False.elim⟩)
    | _ => cases h
  | nop => cases q <;> cases h; exact .inl .nop
  | flush stage => cases q <;> cases h; exact .inl (.flush stage)
  | close stage => cases q <;> cases h; exact .inl (.close stage)
  | derive tiv tcnt => cases q <;> cases h; exact .inl (.derive tiv tcnt)
  | illegal => cases q <;> cases h; exact .inl .illegal

theorem State.sameView.cur_cases {s t : State} (h : s.sameView t) :
    (s.cur = none ∧ t.cur = none) ∨ ∃ p q, s.cur = some p ∧ t.cur = some q ∧ p.sameView q := by
  have hcur := h.cur
  split at hcur
  · exact .inl ⟨‹_›, ‹_›⟩
  · exact .inr ⟨_, _, ‹_›, ‹_›, hcur⟩
  · exact hcur.elim

theorem State.sameView.shape {s t : State} (h : s.sameView t) : SameShape s t :=
  ⟨h.phase, h.cap, h.off, h.fill, h.outCount, h.primCount⟩

theorem State.sameView.butRecord {s t : State} (h : s.sameView t) : SameViewButRecord s t :=
  { h with cur := trivial }

theorem State.sameView.busy {s t : State} (h : s.sameView t) : s.busy = t.busy := by
  obtain ⟨hs, ht⟩ | ⟨p, q, hs, ht, -⟩ := h.cur_cases <;> rw [State.busy, State.busy, hs, ht]
  rfl

theorem State.sameView.hold {s t : State} (h : s.sameView t) : s.hold = t.hold := by
  obtain ⟨hs, ht⟩ | ⟨p, q, hs, ht, hpq⟩ := h.cur_cases
  · rw [State.hold, State.hold, hs, ht]
  · obtain hpaired | ⟨_, _, _, _, _, _, _, _, rfl, rfl⟩ := Pending.sameView_cases hpq
    · exact h.shape.hold hs ht hpaired
    · rw [State.hold, State.hold, hs, ht]

theorem State.sameView.statusWord {s t : State} (h : s.sameView t) : s.statusWord = t.statusWord := by
  have hsstate : s.sstate = t.sstate := by
    rw [State.sstate, State.sstate, h.phase]
    simp only [ne_eq, h.shape.outQ_eq_nil, h.shape.data]
  rw [State.statusWord, State.statusWord, h.err, h.hold, h.busy, hsstate, h.phase]

/-- No register shows a secret or a buffered byte: the key and IV registers read 0, the rest shows what the two states
share. -/
theorem Reg.read_sameView {s t : State} (h : s.sameView t) (r : Reg) : r.read s = r.read t := by
  cases r with
  | id | cmd | key i | iv i => rfl
  | status => exact h.statusWord
  | din => exact h.din
  | cap => rw [Reg.read, Reg.read, h.cap]
  | fill => rw [Reg.read, Reg.read, h.fill]
  | pad => rw [Reg.read, Reg.read, h.shape.pad]
  | outcnt => rw [Reg.read, Reg.read, h.outCount]
  | offLo | offHi => rw [Reg.read, Reg.read, h.off]
  | ctrLo | ctrHi => rw [Reg.read, Reg.read, State.ctrWord, State.ctrWord, State.ctr, State.ctr, h.off]
  | ioffLo => exact h.ioffLo
  | ioffHi => exact h.ioffHi
  | bufreq => exact h.bufreq
  | tiv i => rw [Reg.read, Reg.read, h.tiv]
  | tcntLo => exact h.tcntLo
  | tcntHi => exact h.tcntHi
  | div i => rw [Reg.read, Reg.read, h.div]

theorem busRead_sameView {s t : State} (h : s.sameView t) (o : BitVec 8) : busRead s o = busRead t o := by
  unfold busRead
  split
  · exact Reg.read_sameView h _
  · rfl

/-- A write stores the same value in both. -/
theorem Reg.write_sameView {s t : State} (h : s.sameView t) (r : Reg) (v : Word) :
    (r.write s v).sameView (r.write t v) := by
  cases r with
  | din => exact { h with din := rfl }
  | ioffLo => exact { h with ioffLo := rfl }
  | ioffHi => exact { h with ioffHi := rfl }
  | bufreq => exact { h with bufreq := rfl }
  | tiv i => exact { h with tiv := congrArg (·.set i v) h.tiv }
  | tcntLo => exact { h with tcntLo := rfl }
  | tcntHi => exact { h with tcntHi := rfl }
  | key i | iv i => exact { h with }
  | _ => exact h

theorem busWrite_sameView {s t : State} (h : s.sameView t) (o : BitVec 8) (v : Word) :
    (busWrite s o v).sameView (busWrite t o v) := by
  unfold busWrite
  split
  · exact Reg.write_sameView h _ v
  · exact h

/-! ### The engine -/

/-- What a process makes of the shape is decided by the shape: it queues a byte for each staged one and records an
invocation for each block made. -/
theorem sameView_simulation (P : Primitive) : Simulation P False SameViewButRecord State.sameView where
  shape h := ⟨h.phase, h.cap, h.off, h.fill, h.outCount, h.primCount⟩
  push h _ := { h with fill := congrArg (· + 1) h.fill }
  processed := by
    intro s t h
    have hshape : SameShape s t := ⟨h.phase, h.cap, h.off, h.fill, h.outCount, h.primCount⟩
    have hoff : (s.processed P).off = (t.processed P).off := by
      simp only [State.processed, hshape.off, hshape.stagedCount]
    exact { h with
      off := hoff
      fill := congrArg (fun x : DWord => x.toNat % Config.blockBytes) hoff
      outCount := by simp [State.processed, hshape.queued, hshape.stagedCount]
      primCount := by simp [State.processed, hshape.calls, hshape.blockCount] }
  failedCalls := by
    intro s t h
    have hshape : SameShape s t := ⟨h.phase, h.cap, h.off, h.fill, h.outCount, h.primCount⟩
    exact { h with primCount := by simp [State.failedCalls, hshape.calls, hshape.blockCount] }
  finish h _ := { h with err := rfl }
  enterFault h := { h with phase := rfl, err := rfl }
  closeInstance h := { h with phase := rfl, err := rfl }
  closeFaulted h := { h with phase := rfl, err := rfl }
  derive h _ := { h with div := rfl, err := rfl }
  record h hpq := { h with cur := hpq.sameView }

theorem engineStep_sameView {s t : State} (h : s.sameView t) :
    OutcomePaired State.sameView (engineStep s) (engineStep t) := by
  obtain ⟨hs, ht⟩ | ⟨p, q, hs, ht, hpq⟩ := h.cur_cases
  · rw [engineStep, engineStep, hs, ht]
    exact .next h
  · obtain hpaired | ⟨kl, ivb, key, key', iv, iv', ioff, bufreq, rfl, rfl⟩ := Pending.sameView_cases hpq
    · exact (sameView_simulation _).engineStep h.butRecord h hs ht hpaired
    · rw [engineStep_init hs, engineStep_init ht]
      exact .next (initCommand_paired h.phase (fun _ => { h with err := rfl, cur := trivial })
        (fun _ _ _ => { h with
          phase := rfl, err := rfl, cur := trivial, cap := rfl, off := rfl, fill := rfl, outCount := rfl }) _ _ _ _)

/-! ### The other agents -/

theorem State.sameView.popAgent {s t : State} (h : s.sameView t) : s.popAgent.sameView t.popAgent := by
  have hsched := h.sched
  unfold State.popAgent
  rw [← hsched]
  split
  · exact { h with sched := rfl }
  · exact { h with sched := rfl, tick := congrArg (· + 1) h.tick }

theorem State.sameView.popHost {s t : State} (h : s.sameView t) : s.popHost.sameView t.popHost := by
  have hqueue := h.hostQ
  unfold State.popHost
  rw [← hqueue]
  split
  · exact { h with hostQ := rfl }
  · exact { h with hostQ := rfl, hostSeq := congrArg (· + 1) h.hostSeq }

theorem State.sameView.nextAgent {s t : State} (h : s.sameView t) : s.nextAgent = t.nextAgent := by
  rw [State.nextAgent, State.nextAgent, h.sched, h.tick]

theorem State.sameView.nextHostOp {s t : State} (h : s.sameView t) : s.nextHostOp = t.nextHostOp := by
  rw [State.nextHostOp, State.nextHostOp, h.hostQ, h.hostSeq]

theorem State.sameView.hostRead {s t : State} (h : s.sameView t) (o : BitVec 8) :
    (s.hostRead o).sameView (t.hostRead o) :=
  { h with rdata := busRead_sameView h o }

/-- The records that an acceptance creates look the same: the host can read every operand but the key and the IV. -/
theorem State.sameView.sampleWord {s t : State} (h : s.sameView t) (w : Word) :
    (s.sampleWord w).sameView (t.sampleWord w) := by
  rw [State.sampleWord, State.sampleWord]
  cases decode w with
  | error e => rfl
  | ok i =>
    cases i with
    | nop | flush | close => rfl
    | init kl ivb =>
      have hioff : s.ioff = t.ioff := by rw [State.ioff, State.ioff, h.ioffHi, h.ioffLo]
      exact ⟨rfl, rfl, hioff, h.bufreq⟩
    | write n => exact ⟨rfl, by rw [State.dinBytes, State.dinBytes, h.din], rfl⟩
    | derive =>
      have hoperands : s.sample .derive = t.sample .derive := by
        rw [State.sample, State.sample, State.tcnt, State.tcnt, h.tiv, h.tcntHi, h.tcntLo]
      exact hoperands

theorem State.sameView.accept {s t : State} (h : s.sameView t) (w : Word) : (s.accept w).sameView (t.accept w) :=
  { h with cur := h.sampleWord w }

theorem hostStep_sameView {s t : State} (h : s.sameView t) :
    OutcomePaired State.sameView (hostStep s) (hostStep t) := by
  rw [hostStep, hostStep, ← h.nextHostOp, ← h.busy]
  split
  · split
    · exact .next (h.hostRead _)
    · exact .next (h.hostRead _).popHost
  · split
    · exact .next (h.hostRead _).popHost
    · exact .refused _
  · split
    · split
      · split
        · exact .next h
        · exact .next (h.accept _).popHost
      · exact .next (busWrite_sameView h _ _).popHost
    · exact .refused _

theorem sinkStep_sameView {s t : State} (h : s.sameView t) : (sinkStep s).sameView (sinkStep t) := by
  have hlen := h.outCount
  rw [sinkStep, sinkStep]
  cases hs : s.outQ with
  | nil =>
    rw [h.shape.outQ_eq_nil.mp hs]
    exact h
  | cons b q =>
    cases ht : t.outQ with
    | nil => rw [hs, ht] at hlen; cases hlen
    | cons b' q' =>
      rw [hs, ht] at hlen
      exact { h with outCount := Nat.succ.inj hlen }

theorem resetBlock_sameView {s t : State} (h : s.sameView t) : s.resetBlock.sameView t.resetBlock :=
  { h with
    phase := rfl, err := rfl, cur := trivial, cap := rfl, off := rfl, fill := rfl, outCount := rfl, div := rfl
    din := rfl, ioffLo := rfl, ioffHi := rfl, bufreq := rfl, tiv := rfl, tcntLo := rfl, tcntHi := rfl }

/-! ### The step -/

theorem step_sameView {s t : State} (h : s.sameView t) : OutcomePaired State.sameView (step s) (step t) := by
  have hpop := h.popAgent
  rw [step, step, ← h.nextAgent]
  cases s.nextAgent with
  | host => exact hostStep_sameView hpop
  | engine => exact engineStep_sameView hpop
  | sink => exact .next (sinkStep_sameView hpop)
  | reset => exact .next (resetBlock_sameView hpop)

/-- Settles O54: each agent's step keeps what the two states share. -/
theorem hostViewIsIndependentOfSecrets : Obligations.HostViewIsIndependentOfSecrets := by
  intro s t h
  have hpair := step_sameView h
  generalize step s = o, step t = o' at hpair ⊢
  cases hpair with
  | next h => exact h
  | fault f => rfl
  | refused r => rfl

end Sys2Proof.Machine
end
